-- ==== Sys2Proof/Word.lean ====
section
/-! DEFINITION. The word types of the LineLight CORE. -/

namespace Sys2Proof

/-- One byte of the serial stream (49_debug_trace.md R227). -/
abbrev Byte := BitVec 8

/-- One word of a `NUM` register or buffer: the 64 bits of an IEEE 754 binary64 value
(00_scope.md R6, R9; 20_memory.md R60). -/
abbrev NumWord := BitVec 64

end Sys2Proof
end

