-- ==== Sys2Proof/Syntax.lean ====
section
/-! DEFINITION. The operations of the stage sequencer (30_encoding.md R81), one constructor per row of
spec/opcode_table.json, with the mnemonics (R84) and the pseudo-operations (R85). -/

namespace Sys2Proof

/-- The eleven operations. Every operation has implicit operands only (R81, R82). -/
inductive Instr where
  | pwminit
  | wininit
  | banner
  | sample
  | fft
  | bandsel
  | energy
  | agc
  | render
  | pwmwr
  | trace
  deriving DecidableEq, Repr

/-- The assembler's mnemonic, upper case (R84). -/
def Instr.mnemonic : Instr → List Char
  | .pwminit => ['P', 'W', 'M', 'I', 'N', 'I', 'T']
  | .wininit => ['W', 'I', 'N', 'I', 'N', 'I', 'T']
  | .banner => ['B', 'A', 'N', 'N', 'E', 'R']
  | .sample => ['S', 'A', 'M', 'P', 'L', 'E']
  | .fft => ['F', 'F', 'T']
  | .bandsel => ['B', 'A', 'N', 'D', 'S', 'E', 'L']
  | .energy => ['E', 'N', 'E', 'R', 'G', 'Y']
  | .agc => ['A', 'G', 'C']
  | .render => ['R', 'E', 'N', 'D', 'E', 'R']
  | .pwmwr => ['P', 'W', 'M', 'W', 'R']
  | .trace => ['T', 'R', 'A', 'C', 'E']

/-- All operations in the order of their codes (R81). -/
def Instr.all : List Instr :=
  [.pwminit, .wininit, .banner, .sample, .fft, .bandsel, .energy, .agc, .render, .pwmwr, .trace]

/-- The pseudo-operations (R85). -/
inductive Pseudo where
  | boot
  | frame
  | run (k : Nat)
  deriving DecidableEq, Repr

/-- The expansion of `FRAME`, one pass of the frame loop (R85). -/
def frameOps : List Instr :=
  [.sample, .fft, .bandsel, .energy, .agc, .render, .pwmwr, .trace]

/-- The expansion of `BOOT` (R85). -/
def bootOps : List Instr := [.pwminit, .wininit, .banner]

/-- The expansion of a pseudo-operation (R85). -/
def Pseudo.expand : Pseudo → List Instr
  | .boot => bootOps
  | .frame => frameOps
  | .run k => bootOps ++ (List.replicate k frameOps).flatten

end Sys2Proof
end

