-- ==== Sys2Proof/WellFormed.lean ====
section
/-! DEFINITION. Well-formedness of operations and of operation sequences. -/

namespace Sys2Proof

/-- No operation has a field (30_encoding.md R80, R82), so there is nothing of it to check. -/
def Instr.wf (_ : Instr) : Bool := true

/-- The operation that may follow an operation in a sequence: the next-stage table's order
(40_sequencer.md R101). -/
def Instr.follows : Instr → Instr
  | .pwminit => .wininit
  | .wininit => .banner
  | .banner => .sample
  | .sample => .fft
  | .fft => .bandsel
  | .bandsel => .energy
  | .energy => .agc
  | .agc => .render
  | .render => .pwmwr
  | .pwmwr => .trace
  | .trace => .sample

/-- Every operation of the list is followed by its successor. -/
def chained : List Instr → Bool
  | [] => true
  | [_] => true
  | a :: b :: rest => decide (b = a.follows) && chained (b :: rest)

/-- A program is a prefix of the one fixed sequence from reset: it begins with PWMINIT and keeps the
order; "there is no way to execute the operations in another order" (R85). -/
def programWf : List Instr → Bool
  | [] => true
  | a :: rest => decide (a = .pwminit) && chained (a :: rest)

end Sys2Proof
end

