-- ==== Sys2Proof/Decode.lean ====
section
/-! DEFINITION. Decoding and encoding of the 4-bit operation codes (30_encoding.md R80 to R86). -/

namespace Sys2Proof

/-- Why a code is not decoded: it is one of the reserved codes 11 to 15 (R83). -/
inductive DecodeError where
  | reservedCode (code : BitVec 4)
  deriving DecidableEq, Repr

/-- The decoder reads the four bits of the code and nothing else (R80, R81); 11 to 15 are invalid (R83). -/
def decode (op : BitVec 4) : Except DecodeError Instr :=
  match op.toNat with
  | 0 => .ok .pwminit
  | 1 => .ok .wininit
  | 2 => .ok .banner
  | 3 => .ok .sample
  | 4 => .ok .fft
  | 5 => .ok .bandsel
  | 6 => .ok .energy
  | 7 => .ok .agc
  | 8 => .ok .render
  | 9 => .ok .pwmwr
  | 10 => .ok .trace
  | _ => .error (.reservedCode op)

/-- The code of an operation (R81). -/
def encode : Instr → BitVec 4
  | .pwminit => 0b0000
  | .wininit => 0b0001
  | .banner => 0b0010
  | .sample => 0b0011
  | .fft => 0b0100
  | .bandsel => 0b0101
  | .energy => 0b0110
  | .agc => 0b0111
  | .render => 0b1000
  | .pwmwr => 0b1001
  | .trace => 0b1010

/-- The four bits of the code in a table word: bits 3 to 0 (R80; log 25). -/
def opOfTableWord (nbits w : Nat) : BitVec 4 := BitVec.ofNat 4 (w % 2 ^ nbits)

/-- What the decoder reads from a word of spec/opcode_table.json (log 25). -/
def decodeTableWord (nbits w : Nat) : Option Instr :=
  match decode (opOfTableWord nbits w) with
  | .ok i => some i
  | .error _ => none

/-- The codes of a sequence, in order (R86). -/
def encodeSeq (ops : List Instr) : List (BitVec 4) := ops.map encode

/-- The display packing: two codes per byte, the first in the high nibble; a trailing half byte is
padded with 0 (R86). -/
def packCodes : List (BitVec 4) → List Byte
  | [] => []
  | [a] => [a ++ (0 : BitVec 4)]
  | a :: b :: rest => (a ++ b) :: packCodes rest

/-- Decodes a list of codes, stopping at the first reserved one. -/
def decodeSeq : List (BitVec 4) → Except DecodeError (List Instr)
  | [] => .ok []
  | c :: rest =>
    match decode c, decodeSeq rest with
    | .ok i, .ok is => .ok (i :: is)
    | .error e, _ => .error e
    | _, .error e => .error e

/-- A line's text with its comment, from `;` to the end, and the surrounding spaces removed (R84). -/
def stripLine (line : List Char) : List Char :=
  let body := (line.takeWhile (fun c => c != ';')).dropWhile (fun c => c == ' ')
  (body.reverse.dropWhile (fun c => c == ' ')).reverse

/-- Assembles one line: an operation, or nothing for a line without one; `none` for any other text (R84). -/
def assembleLine (line : List Char) : Option (List Instr) :=
  match stripLine line with
  | [] => some []
  | text => (Instr.all.find? (fun i => i.mnemonic == text)).map (fun i => [i])

/-- Assembles a text given as its lines, one operation a line (R84). -/
def assemble : List (List Char) → Option (List Instr)
  | [] => some []
  | l :: rest =>
    match assembleLine l, assemble rest with
    | some a, some b => some (a ++ b)
    | _, _ => none

end Sys2Proof
end

