-- ==== Sys2Proof/Config.lean ====
section
/-! DEFINITION. What an implementation fixes: the build parameters (00_scope.md R6), the
configuration constants (R7), the record of `NUM` arithmetic (R9), and the free values. -/

namespace Sys2Proof.Config

/-- The legal frame lengths `N` (R6, P1). -/
inductive FrameLen where
  | n128
  | n256
  deriving DecidableEq, Repr

/-- `LOG2N` (R6). -/
def FrameLen.log2 : FrameLen → Nat
  | .n128 => 7
  | .n256 => 8

/-- `N` (R6). -/
def FrameLen.len : FrameLen → Nat
  | .n128 => 128
  | .n256 => 256

/-- `N / 2`, the number of twiddle factors (10_state.md R34). -/
def FrameLen.half : FrameLen → Nat
  | .n128 => 64
  | .n256 => 128

/-- `NYQ = N/2 − 1` (R6, R17; 90_conflicts.md C2). -/
def FrameLen.nyq : FrameLen → Nat
  | .n128 => 63
  | .n256 => 127

/-- `EOL`, the line terminator of serial lines (R6, D20). -/
inductive Eol where
  | crlf
  | lf
  deriving DecidableEq, Repr

/-- The bytes of a line terminator (D20). -/
def Eol.bytes : Eol → List Byte
  | .crlf => [0x0D, 0x0A]
  | .lf => [0x0A]

/-- The build parameters a model takes as arguments (R6): `N`, `TRACE_EN`, `EOL`. -/
structure Params where
  frame : FrameLen
  traceEn : Bool
  eol : Eol
  deriving DecidableEq, Repr

/-- The build that `State.reset` shows: the values R6 takes for `TRACE_EN` and `EOL`, and `N` = 128.
DESIGN CHOICE for `N` (unsafe, log 2): R6 leaves it open. -/
def standardBuild : Params := { frame := .n128, traceEn := true, eol := .crlf }

/-! Configuration constants (R7). -/

def sampleRateHz : Nat := 9600

/-- `SAMPLE_PERIOD_US = round(1e6 / SAMPLE_RATE_HZ)` = 104 (R7). -/
def samplePeriodUs : Nat := (2 * 1000000 + sampleRateHz) / (2 * sampleRateHz)

def adcBias : Int := 512

/-- `TRACE_PERIOD_MS` (R7). -/
def tracePeriodMs : Nat := 1000

/-- `FCPU` (R6, D4). Timing only. -/
def fcpuHz : Nat := 16000000

/-- The period of the phase-correct PWM in timer clocks, `2 × 255` (41_pwm_driver.md R112). -/
def pwmPeriod : Nat := 510

/-- The serial parameters that are not writable: 115200 baud, 8 data bits, no parity, 1 stop bit
(10_state.md R40, 49_debug_trace.md R231). -/
structure SerialFormat where
  baud : Nat
  dataBits : Nat
  parity : Bool
  stopBits : Nat
  deriving DecidableEq, Repr

def serialFormat : SerialFormat := { baud := 115200, dataBits := 8, parity := false, stopBits := 1 }

/-- The record of `NUM` arithmetic over a carrier `α` (R9): the sum, difference, product, quotient and
root are rounded once each, `cos` and `sin` are configuration functions, `ofInt` is `to_num`,
`ofRatio n d` is the `NUM` value nearest to the decimal literal `n / d` (R7), `floor` is `⌊·⌋`, `lt` the
order, and `finite` tells the values that may reach a comparison or a floor (47_agc_smoother.md R212). -/
structure Arith (α : Type) where
  add : α → α → α
  sub : α → α → α
  mul : α → α → α
  div : α → α → α
  neg : α → α
  sqrt : α → α
  cos : α → α
  sin : α → α
  ofInt : Int → α
  ofRatio : Nat → Nat → α
  pi : α
  floor : α → Int
  lt : α → α → Bool
  finite : α → Bool

/-- How a library's `cos` or `sin` stands to the correctly rounded value: the same, or one unit in the
last place smaller or larger in magnitude (P3, U3, U18). -/
inductive LastPlace where
  | same
  | smaller
  | larger
  deriving DecidableEq, Repr, Inhabited

/-! Free values. None of these has a body: nothing is known of them but their type. -/

/-- The last place of the library's `cos` at an argument (P3, U3; log 4). -/
opaque cosLastPlace : NumWord → LastPlace

/-- The last place of the library's `sin` at an argument (P3, U3; log 4). -/
opaque sinLastPlace : NumWord → LastPlace

/-- The result of the `k`-th ADC conversion, where no script supplies it (60_exceptions.md R274; log 7). -/
opaque adcAnswer : Nat → BitVec 10

/-- The advance of the microsecond clock before its `k`-th read, below 2^31
(60_exceptions.md R270 (c); log 8). -/
opaque usAdvance : Nat → BitVec 31

/-- The advance of the millisecond clock before its `k`-th read (60_exceptions.md R271; log 9). -/
opaque msAdvance : Nat → BitVec 32

/-- The number of timer clocks that pass around the `k`-th operation (U21; log 10). -/
opaque timerClocks : Nat → Nat

/-- The clocks' values at reset are arbitrary (60_exceptions.md R270, R271, U22; log 8, 9). -/
opaque usAtReset : BitVec 32

opaque msAtReset : BitVec 32

/-- What `fmt3` prints for a negative `K`, which R228 does not say (log 21). -/
opaque negativeThousandths : Int → Nat

end Sys2Proof.Config
end

