-- ==== Sys2Proof/Machine/Binary64.lean ====
section
/-! DEFINITION. IEEE 754 binary64 with round to nearest even: the format `NUM` (00_scope.md R6, R9, R16,
D3). Every finite value is an integer number of units of 2^−1074, so each operation is computed exactly
on integers and rounded once. -/

namespace Sys2Proof.Machine

/-- How many units of the least subnormal make 1: 2^1074. -/
def F64.scale : Nat := 2 ^ 1074

/-- The exponent field, bits 62 to 52. -/
def F64.expField (x : NumWord) : Nat := x.toNat / 2 ^ 52 % 2 ^ 11

/-- The fraction field, bits 51 to 0. -/
def F64.fracField (x : NumWord) : Nat := x.toNat % 2 ^ 52

/-- The sign bit. -/
def F64.isNeg (x : NumWord) : Bool := x.msb

/-- Neither infinite nor NaN. -/
def F64.isFinite (x : NumWord) : Bool := decide (F64.expField x ≠ 2047)

def F64.isNaN (x : NumWord) : Bool := decide (F64.expField x = 2047) && decide (F64.fracField x ≠ 0)

def F64.isInf (x : NumWord) : Bool := decide (F64.expField x = 2047) && decide (F64.fracField x = 0)

/-- The magnitude of a finite value, in units of 2^−1074. -/
def F64.mag (x : NumWord) : Nat :=
  if F64.expField x = 0 then F64.fracField x
  else (2 ^ 52 + F64.fracField x) * 2 ^ (F64.expField x - 1)

/-- The value of a finite word, in units of 2^−1074. Both zeros have the value 0. -/
def F64.val (x : NumWord) : Int := if F64.isNeg x then -(F64.mag x : Int) else (F64.mag x : Int)

/-- The value of a finite word as a rational number. -/
def F64.toRat (x : NumWord) : Rat := (F64.val x : Rat) / (F64.scale : Rat)

/-- The quotient `n / d` rounded to the nearest integer, ties to even (`d > 0`). -/
def F64.nearestEven (n d : Nat) : Nat :=
  if 2 * (n % d) < d then n / d
  else if d < 2 * (n % d) then n / d + 1
  else n / d + n / d % 2

/-- The spacing of the format around the quotient `n / d` is 2 to this power, in units of 2^−1074. -/
def F64.binade (n d : Nat) : Nat := Nat.log2 (n / d) - 52

/-- The exponent and fraction fields of the value nearest to `n / d` units of 2^−1074; from the
overflow threshold on, those of infinity. -/
def F64.roundMag (n d : Nat) : Nat :=
  min (F64.binade n d * 2 ^ 52 + F64.nearestEven n (d * 2 ^ F64.binade n d)) (2047 * 2 ^ 52)

/-- A word from its sign and its exponent and fraction fields. -/
def F64.pack (neg : Bool) (fields : Nat) : NumWord :=
  BitVec.ofNat 64 (if neg then 2 ^ 63 + fields else fields)

/-- The word nearest to `± n / d` units of 2^−1074. -/
def F64.round (neg : Bool) (n d : Nat) : NumWord := F64.pack neg (F64.roundMag n d)

def F64.zero : NumWord := 0x0000000000000000

def F64.negZero : NumWord := 0x8000000000000000

def F64.one : NumWord := 0x3FF0000000000000

/-- The NaN every invalid operation answers with; its payload is not observable (log 3). -/
def F64.nan : NumWord := 0x7FF8000000000000

def F64.inf (neg : Bool) : NumWord := F64.pack neg (2047 * 2 ^ 52)

def F64.neg (a : NumWord) : NumWord := a ^^^ 0x8000000000000000

/-- Sum, rounded once. -/
def F64.add (a b : NumWord) : NumWord :=
  if F64.isNaN a || F64.isNaN b then F64.nan
  else if F64.isInf a then
    (if F64.isInf b && (F64.isNeg a != F64.isNeg b) then F64.nan else a)
  else if F64.isInf b then b
  else if F64.val a + F64.val b = 0 then
    (if F64.isNeg a && F64.isNeg b then F64.negZero else F64.zero)
  else F64.round (decide (F64.val a + F64.val b < 0)) (F64.val a + F64.val b).natAbs 1

/-- Difference, rounded once. -/
def F64.sub (a b : NumWord) : NumWord := F64.add a (F64.neg b)

/-- Product, rounded once. -/
def F64.mul (a b : NumWord) : NumWord :=
  if F64.isNaN a || F64.isNaN b then F64.nan
  else if F64.isInf a then
    (if F64.isInf b || decide (F64.mag b ≠ 0) then F64.inf (F64.isNeg a != F64.isNeg b) else F64.nan)
  else if F64.isInf b then
    (if F64.mag a ≠ 0 then F64.inf (F64.isNeg a != F64.isNeg b) else F64.nan)
  else F64.round (F64.isNeg a != F64.isNeg b) (F64.mag a * F64.mag b) F64.scale

/-- Quotient, rounded once. -/
def F64.div (a b : NumWord) : NumWord :=
  if F64.isNaN a || F64.isNaN b then F64.nan
  else if F64.isInf a then
    (if F64.isInf b then F64.nan else F64.inf (F64.isNeg a != F64.isNeg b))
  else if F64.isInf b then F64.pack (F64.isNeg a != F64.isNeg b) 0
  else if F64.mag b = 0 then
    (if F64.mag a = 0 then F64.nan else F64.inf (F64.isNeg a != F64.isNeg b))
  else F64.round (F64.isNeg a != F64.isNeg b) (F64.mag a * F64.scale) (F64.mag b)

/-- The integer square root below `2^k` added to `r`: the bits `k−1 … 0` of the root of `n`. -/
def F64.isqrtBits (n : Nat) : Nat → Nat → Nat
  | 0, r => r
  | k + 1, r =>
    if (r + 2 ^ k) * (r + 2 ^ k) ≤ n then F64.isqrtBits n k (r + 2 ^ k) else F64.isqrtBits n k r

/-- `⌊√n⌋` for `n < 2^168`. -/
def F64.isqrt (n : Nat) : Nat := F64.isqrtBits n 84 0

/-- The significand of a finite value as an integer. -/
def F64.significand (x : NumWord) : Nat :=
  if F64.expField x = 0 then F64.fracField x else 2 ^ 52 + F64.fracField x

/-- With `c = 1074 + (exponent − 1)`, the root of a positive value is the root of
`significand · 2^c` units; it is taken of `significand · 2^(110 + c mod 2)` and scaled by a power of 2. A
remainder is recorded as one further bit, which decides the rounding. -/
def F64.sqrtRound (x : NumWord) : NumWord :=
  let c := 1074 + (F64.expField x - 1)
  let n := F64.significand x * 2 ^ (110 + c % 2)
  let r := F64.isqrt n
  F64.round false ((2 * r + if r * r = n then 0 else 1) * 2 ^ ((c - 110 - c % 2) / 2)) 2

/-- Square root, rounded once; of −0 it is −0, of a negative value NaN. -/
def F64.sqrt (x : NumWord) : NumWord :=
  if F64.isNaN x then F64.nan
  else if F64.mag x = 0 && F64.isFinite x then x
  else if F64.isNeg x then F64.nan
  else if F64.isInf x then x
  else F64.sqrtRound x

/-- `to_num`: the value nearest to an integer (R11). -/
def F64.ofInt (k : Int) : NumWord := F64.round (decide (k < 0)) (k.natAbs * F64.scale) 1

/-- The value nearest to the decimal literal `n / d` (R7). -/
def F64.ofRatio (n d : Nat) : NumWord := F64.round false (n * F64.scale) d

/-- The `NUM` value nearest to π (42_window_table.md R131). -/
def F64.pi : NumWord := F64.ofRatio 314159265358979323846264338327950288 100000000000000000000000000000000000

/-- `⌊x⌋` of a finite value. -/
def F64.floor (x : NumWord) : Int := F64.val x / (F64.scale : Int)

/-- `a < b` on finite values; the two zeros are equal (93_implementation_defined.md U23). -/
def F64.lt (a b : NumWord) : Bool := decide (F64.val a < F64.val b)

end Sys2Proof.Machine
end

