-- ==== Sys2Proof/Machine/Trig.lean ====
section
/-! DEFINITION. The configuration functions `cos` and `sin` (00_scope.md R9, P3, U3; log 4), and the record
of binary64 arithmetic. A library's value is the correctly rounded one or differs from it by one unit in
the last place; which, is a free value of Config. -/

namespace Sys2Proof.Machine

/-- Fixed-point unit of the reference series: 2^160. -/
def Trig.unit : Nat := 2 ^ 160

/-- The alternating series `t − t·x²/((j+1)(j+2)) + …` in fixed point, `x2` the square of the argument
times the square of the unit. -/
def Trig.series (x2 : Nat) : Nat → Nat → Nat → Int
  | 0, _, _ => 0
  | fuel + 1, j, t =>
    (t : Int) - Trig.series x2 fuel (j + 2) (t * x2 / (Trig.unit * Trig.unit * ((j + 1) * (j + 2))))

/-- The magnitude of the argument in fixed point; exact for every argument the operations use. -/
def Trig.arg (x : NumWord) : Nat := F64.mag x * Trig.unit / F64.scale

/-- The word nearest to a fixed-point number. -/
def Trig.toWord (v : Int) : NumWord := F64.round (decide (v < 0)) (v.natAbs * F64.scale) Trig.unit

/-- The correctly rounded `cos` of an argument of magnitude below 8. -/
def Trig.cosRef (x : NumWord) : NumWord :=
  Trig.toWord (Trig.series (Trig.arg x * Trig.arg x) 48 0 Trig.unit)

/-- The correctly rounded `sin` of an argument in `0 … 8`. -/
def Trig.sinRef (x : NumWord) : NumWord :=
  Trig.toWord (Trig.series (Trig.arg x * Trig.arg x) 48 1 (Trig.arg x))

/-- The fields of a word moved by at most one unit in the last place. -/
def Trig.lastPlaceFields (d : Config.LastPlace) (m : Nat) : Nat :=
  match d with
  | .same => m
  | .smaller => m - 1
  | .larger => m + 1

/-- The word at most one unit in the last place away in magnitude, kept in `[−1, 1]` (U3). -/
def Trig.lastPlace (d : Config.LastPlace) (y : NumWord) : NumWord :=
  F64.pack (F64.isNeg y) (min (Trig.lastPlaceFields d (y.toNat % 2 ^ 63)) F64.one.toNat)

/-- The library's `cos`: exactly 1 where the correctly rounded value is 1, which holds at 0 and at the
`NUM` value of 2π (42_window_table.md R132 (b)); elsewhere within one last place. -/
def Trig.cos (x : NumWord) : NumWord :=
  if Trig.cosRef x = F64.one then F64.one else Trig.lastPlace (Config.cosLastPlace x) (Trig.cosRef x)

/-- The library's `sin`: exactly 0 at 0 (44_fft.md R164); elsewhere within one last place. -/
def Trig.sin (x : NumWord) : NumWord :=
  if F64.mag x = 0 then x else Trig.lastPlace (Config.sinLastPlace x) (Trig.sinRef x)

/-- The arithmetic of this hardware: binary64 (R6, R9, D3). -/
def num : Config.Arith NumWord where
  add := F64.add
  sub := F64.sub
  mul := F64.mul
  div := F64.div
  neg := F64.neg
  sqrt := F64.sqrt
  cos := Trig.cos
  sin := Trig.sin
  ofInt := F64.ofInt
  ofRatio := F64.ofRatio
  pi := F64.pi
  floor := F64.floor
  lt := F64.lt
  finite := F64.isFinite

end Sys2Proof.Machine
end

