-- ==== Sys2Proof/Machine/Numeric.lean ====
section
/-! DEFINITION. The helper functions of 00_scope.md R11 over a record of `NUM` arithmetic, and the two
constant tables: the Hann window (42_window_table.md R131) and the twiddle ROM (44_fft.md R164).
`none` stands for the refusal of 60_exceptions.md R262 (c): a NaN or infinite operand reaches `min`,
`clamp`, `floor` or a comparison. -/

namespace Sys2Proof.Machine

open Config (Arith)

/-- The integer 0 in the format. -/
def Numeric.zero {α : Type} (A : Arith α) : α := A.ofInt 0

/-- The integer 1 in the format. -/
def Numeric.one {α : Type} (A : Arith α) : α := A.ofInt 1

/-- The value 0.5. -/
def Numeric.half {α : Type} (A : Arith α) : α := A.ofRatio 1 2

/-- `min(a, b) = a if a <= b else b` (R11). -/
def Numeric.min {α : Type} (A : Arith α) (a b : α) : Option α :=
  if A.finite a && A.finite b then some (if A.lt b a then b else a) else none

/-- `max(a, b) = a if a >= b else b` (R11). -/
def Numeric.max {α : Type} (A : Arith α) (a b : α) : Option α :=
  if A.finite a && A.finite b then some (if A.lt a b then b else a) else none

/-- `clamp(x, lo, hi)`: `lo` if `x < lo`; `hi` if `x > hi`; otherwise `x` (R11). The two limits are finite
constants. -/
def Numeric.clamp {α : Type} (A : Arith α) (x lo hi : α) : Option α :=
  if A.finite x then some (if A.lt x lo then lo else if A.lt hi x then hi else x) else none

/-- `round_half_up(x) = floor(x + 0.5)`, the sum rounded once before the floor (R11, 48_renderer.md
R221; log 22). -/
def Numeric.roundHalfUp {α : Type} (A : Arith α) (x : α) : Option Int :=
  if A.finite (A.add x (Numeric.half A)) then some (A.floor (A.add x (Numeric.half A))) else none

/-- `clamp` on integers (R11). -/
def Numeric.clampInt (x lo hi : Int) : Int := if x < lo then lo else if hi < x then hi else x

/-- `bitrev_L(i)`: the integer whose `L`-bit form is that of `i` reversed (R11). -/
def Numeric.bitrev : Nat → Nat → Nat
  | 0, _ => 0
  | k + 1, i => i % 2 * 2 ^ k + Numeric.bitrev k (i / 2)

/-- The angle `(2 × π × k) / d`, evaluated in this order (42_window_table.md R131, 44_fft.md R164). -/
def Numeric.angle {α : Type} (A : Arith α) (k d : Nat) : α :=
  A.div (A.mul (A.mul (A.ofInt 2) A.pi) (A.ofInt k)) (A.ofInt d)

/-- `hann[n] = 0.5 × (1 − cos((2 × π × n) / (N − 1)))` (42_window_table.md R130, R131). -/
def hannCoeff {α : Type} (A : Arith α) (len n : Nat) : α :=
  A.mul (Numeric.half A) (A.sub (Numeric.one A) (A.cos (Numeric.angle A n (len - 1))))

/-- The window table of `N` coefficients. -/
def hannTable {α : Type} (A : Arith α) (len : Nat) : List α := (List.range len).map (hannCoeff A len)

/-- `TW_RE[k] = cos(2πk / N)` for `k < N/2` (44_fft.md R164). -/
def twiddleRe {α : Type} (A : Arith α) (len : Nat) : List α :=
  (List.range (len / 2)).map (fun k => A.cos (Numeric.angle A k len))

/-- `TW_IM[k] = −sin(2πk / N)` for `k < N/2` (44_fft.md R164). -/
def twiddleIm {α : Type} (A : Arith α) (len : Nat) : List α :=
  (List.range (len / 2)).map (fun k => A.neg (A.sin (Numeric.angle A k len)))

end Sys2Proof.Machine
end

