-- ==== Sys2Proof/Machine/State.lean ====
section
/-! DEFINITION. The state of the LineLight CORE (10_state.md R20), the environment's inputs (R45), the
reasons a step stops, and the state after reset (70_reset_and_hazards.md R291). -/

namespace Sys2Proof.Machine

/-- The block raises no exception and never stops with a fault (60_exceptions.md R260, R267): there is no
fault at all, so the type has no constructor (log 24). Safe: nothing can be faulted wrongly. -/
inductive Fault where
  deriving DecidableEq, Repr

/-- Why the model takes no step. All but the first stand in the spec, which says of each that the model
refuses and that no run from reset reaches it (60_exceptions.md R262). -/
inductive Refusal where
  /-- Raised by an arm of exec that gives its operation no meaning. Safe. No arm does. -/
  | notModelled (mnemonic : String)
  /-- Raised by the step: `STAGE` holds a reserved code, 11 to 15 (30_encoding.md R83). Safe. -/
  | reservedStage (code : BitVec 4)
  /-- Raised by AGC, RENDER and TRACE: a NaN or infinite operand reaches `clamp`, `min`, `floor` or a
  comparison (47_agc_smoother.md R212, 60_exceptions.md R262 (c)). Safe (log 14). -/
  | notFinite
  /-- Raised by SAMPLE, FFT and ENERGY: a word array has not its number of words, so an index would lie
  outside it (20_memory.md R61). Safe (log 17). -/
  | arraySize
  /-- Raised by the step: `TCFG` holds a reserved value (10_state.md R35, U16). Safe (log 16). -/
  | reservedTimerConfig
  /-- Raised by the step: `ADCCH` holds 3 (10_state.md R39, U17). Safe (log 16). -/
  | reservedChannel
  deriving DecidableEq, Repr

/-- The ADC's channels (10_state.md R39, D8). -/
inductive Channel where
  | audio
  | pot1
  | pot2
  deriving DecidableEq, Repr

/-- The code of a channel in `ADCCH` (R39). -/
def Channel.code : Channel → BitVec 2
  | .audio => 0
  | .pot1 => 1
  | .pot2 => 2

/-- The counting direction of the PWM timer (10_state.md R38). -/
inductive Dir where
  | up
  | down
  deriving DecidableEq, Repr

/-- The hidden state of the PWM timer (10_state.md R37, R38; log 26). -/
structure Timer where
  ocrAct : BitVec 8
  cnt : BitVec 8
  dir : Dir
  deriving DecidableEq, Repr

/-- What the environment answers next: first the script's entries, then free values; `given` counts the
answers given so far. The model's own (log 7). -/
structure Feed (α : Type) where
  script : List α
  given : Nat
  deriving DecidableEq, Repr

/-- The microsecond clock: its value at its last read and its coming advances (60_exceptions.md R270). -/
structure UsClock where
  now : BitVec 32
  feed : Feed (BitVec 31)
  deriving DecidableEq, Repr

/-- The millisecond clock: its value at its last read and its coming advances (60_exceptions.md R271). -/
structure MsClock where
  now : BitVec 32
  feed : Feed (BitVec 32)
  deriving DecidableEq, Repr

/-- The environment (00_scope.md R14, 10_state.md R45, R46): the clocks, the ADC's answers, the timer clocks
that pass around each operation, and the level of `rst` at each coming step. The model's own. -/
structure Env where
  us : UsClock
  ms : MsClock
  adc : Feed (BitVec 10)
  ticks : Feed Nat
  rst : List Bool
  deriving DecidableEq, Repr

/-- What the outside has seen (00_scope.md R13 (a), (c)), oldest first. The model's own (log 19). -/
structure Seen where
  duties : List (BitVec 8)
  conversions : List (BitVec 2)
  deriving DecidableEq, Repr

structure State where
  /-- The build parameters (00_scope.md R6; log 2). -/
  params : Config.Params
  /-- `STAGE` (R21). -/
  stage : BitVec 4
  /-- `I` (R22). -/
  i : BitVec 9
  /-- `T0` (R24). -/
  t0 : BitVec 32
  /-- `RAW` (R25). -/
  raw : BitVec 10
  /-- `P1`, `P2` (R26). -/
  p1 : BitVec 10
  p2 : BitVec 10
  /-- `BINLO`, `BINHI` (R27). -/
  binLo : BitVec 7
  binHi : BitVec 7
  /-- `DUTY` (R28). -/
  duty : BitVec 8
  /-- `LAST_MS` (R29). -/
  lastMs : BitVec 32
  /-- `EMA`, `GAIN`, `E`, `LEVEL` (R30). -/
  ema : NumWord
  gain : NumWord
  e : NumWord
  level : NumWord
  /-- `vReal`, `vImag` (R32), each of `N` words. -/
  vReal : List NumWord
  vImag : List NumWord
  /-- `hann` (R33), `N` words. -/
  hann : List NumWord
  /-- `TW_RE`, `TW_IM` (R34), `N/2` words each, constant. -/
  twRe : List NumWord
  twIm : List NumWord
  /-- `TCFG` (R35). -/
  tcfg : BitVec 4
  /-- `OCR` (R36). -/
  ocr : BitVec 16
  /-- `OCR_ACT`, `CNT`, `DIR` (R37, R38). -/
  timer : Timer
  /-- `ADCCH` (R39). -/
  adcch : BitVec 2
  /-- The conversion in flight (R42). -/
  inFlight : Option Channel
  /-- `SERCFG.EN` (R40). -/
  serEn : Bool
  /-- `TXQ` (R41), first byte first. -/
  txq : List Byte
  seen : Seen
  env : Env
  deriving DecidableEq, Repr

/-- The environment at reset: nothing scripted, the clocks at arbitrary values (U22). -/
def Env.reset : Env where
  us := { now := Config.usAtReset, feed := { script := [], given := 0 } }
  ms := { now := Config.msAtReset, feed := { script := [], given := 0 } }
  adc := { script := [], given := 0 }
  ticks := { script := [], given := 0 }
  rst := []

/-- The reset values of every piece of state (70_reset_and_hazards.md R291) for a build, in an environment.
`T0`, `RAW`, `P1`, `P2`, `BINLO`, `BINHI`, `E`, `LEVEL`, `vReal`, `vImag` and `hann` have none in the
spec: DESIGN CHOICE, unsafe (log 5, 6). -/
def State.resetWith (p : Config.Params) (v : Env) : State where
  params := p
  stage := 0
  i := 0
  t0 := 0
  raw := 0
  p1 := 0
  p2 := 0
  binLo := 1
  binHi := 2
  duty := 0
  lastMs := 0
  ema := F64.zero
  gain := F64.one
  e := F64.zero
  level := F64.zero
  vReal := List.replicate p.frame.len F64.zero
  vImag := List.replicate p.frame.len F64.zero
  hann := List.replicate p.frame.len F64.zero
  twRe := twiddleRe num p.frame.len
  twIm := twiddleIm num p.frame.len
  tcfg := 0b0000
  ocr := 0x0000
  timer := { ocrAct := 0, cnt := 0, dir := .up }
  adcch := 0
  inFlight := none
  serEn := false
  txq := []
  seen := { duties := [], conversions := [] }
  env := v

/-- The machine right after reset (R290 to R292), for the standard build. -/
def State.reset : State := State.resetWith Config.standardBuild Env.reset

end Sys2Proof.Machine
end

