-- ==== Sys2Proof/Machine/Flags.lean ====
section
/-! DEFINITION. The block has no flags (10_state.md R44); it evaluates two conditions inside an operation,
and they are here, with the fields of `TCFG`. -/

namespace Sys2Proof.Machine

/-- `sdiff32(a, b)`: the two's-complement reading of `(a − b) mod 2^32` (00_scope.md R11). -/
def sdiff32 (a b : BitVec 32) : Int := (a - b).toInt

/-- "Deadline reached" (43_sampler.md R142). -/
def deadlineReached (now deadline : BitVec 32) : Bool := decide (0 ≤ sdiff32 now deadline)

/-- "Trace due": at least 1000 ms since the last line, by unsigned difference (49_debug_trace.md R233). -/
def traceDue (now last : BitVec 32) : Bool := decide (Config.tracePeriodMs ≤ (now - last).toNat)

/-- `TCFG.EN`, bit 0 (10_state.md R35). -/
def tcfgEn (c : BitVec 4) : Bool := c.getLsbD 0

/-- `TCFG.MODE`, bit 1 (R35). -/
def tcfgMode (c : BitVec 4) : Bool := c.getLsbD 1

/-- `TCFG.PRESC`, bit 2 (R35). -/
def tcfgPresc (c : BitVec 4) : Bool := c.getLsbD 2

/-- `TCFG.INV`, bit 3 (R35). -/
def tcfgInv (c : BitVec 4) : Bool := c.getLsbD 3

/-- The timer counts (41_pwm_driver.md R116). -/
def timerRunning (c : BitVec 4) : Bool := tcfgEn c && tcfgMode c

/-- No field of `TCFG` has a reserved value: `PRESC` = 0, `INV` = 0, and `MODE` = 1 where `EN` = 1
(R35, U16; log 16). -/
def tcfgLegal (c : BitVec 4) : Bool := !tcfgPresc c && !tcfgInv c && (!tcfgEn c || tcfgMode c)

/-- `ADCCH` names a channel: 3 is reserved (R39, U17; log 16). -/
def channelLegal (c : BitVec 2) : Bool := decide (c ≠ 3)

end Sys2Proof.Machine
end

