-- ==== Sys2Proof/Machine/Operands.lean ====
section
/-! DEFINITION. Where operations take their operands from (30_encoding.md R81: all operands are implicit):
words of the arrays, the two clocks, and ADC conversions (10_state.md R45, 20_memory.md R66). -/

namespace Sys2Proof.Machine

/-- One word of an array. Every operation first checks the array's length, so the index lies inside it
(20_memory.md R61; log 17). -/
def wordAt {α : Type} (A : Config.Arith α) (a : List α) (i : Nat) : α := a.getD i (Numeric.zero A)

/-- The environment's next answer: the script's, or past its end a free value. -/
def Feed.value {α : Type} (free : Nat → α) (f : Feed α) : α := f.script.headD (free f.given)

/-- The feed after one answer. -/
def Feed.rest {α : Type} (f : Feed α) : Feed α := { script := f.script.tail, given := f.given + 1 }

/-- One read of `US_NOW`: the clock has advanced by less than 2^31 since the last read, modulo 2^32
(60_exceptions.md R270). The value read is the result's `now`. -/
def UsClock.read (c : UsClock) : UsClock where
  now := c.now + (c.feed.value Config.usAdvance).setWidth 32
  feed := c.feed.rest

/-- The reading of the poll that ends a wait, given the clock's advance since the poll before it. That poll
was at most `deadline − 1` and the advance is below 2^31 (60_exceptions.md R270 (c)), so the reading is in
`deadline … deadline + 2^31 − 2`: it is `deadline − 1` advanced by the advance, or by 1 where that is 0,
which cannot reach the deadline (log 8). -/
def landing (deadline : BitVec 32) (advance : BitVec 31) : BitVec 32 :=
  deadline + BitVec.ofNat 32 (advance.toNat - 1)

/-- The spin-wait for a deadline (43_sampler.md R142): the first poll proceeds if the deadline is
reached; otherwise polls are repeated, changing nothing, until one finds the deadline reached. That such a
poll comes is the fairness premise R146 (log 8). -/
def UsClock.waitUntil (deadline : BitVec 32) (c : UsClock) : UsClock where
  now :=
    if deadlineReached c.read.now deadline then c.read.now
    else landing deadline (c.read.feed.value Config.usAdvance)
  feed := if deadlineReached c.read.now deadline then c.read.feed else c.read.feed.rest

/-- One read of `MS_NOW` (60_exceptions.md R271; log 9). The value read is the result's `now`. -/
def MsClock.read (c : MsClock) : MsClock where
  now := c.now + c.feed.value Config.msAdvance
  feed := c.feed.rest

/-- The request of a conversion: the channel is selected, the conversion is in flight, and the outside
sees it (10_state.md R39, R42; 00_scope.md R13 (c)). -/
def State.startConversion (ch : Channel) (s : State) : State :=
  { s with
    adcch := ch.code
    inFlight := some ch
    seen := { s.seen with conversions := s.seen.conversions ++ [ch.code] } }

/-- The value the ADC answers the next conversion with, an integer in `0 … 1023` (60_exceptions.md R274). -/
def State.conversionResult (s : State) : BitVec 10 := s.env.adc.value Config.adcAnswer

/-- The completion of the conversion in flight: its answer is taken. -/
def State.endConversion (s : State) : State :=
  { s with inFlight := none, env := { s.env with adc := s.env.adc.rest } }

/-- `AdcRead(ch)` (00_scope.md R10): the state after one conversion; its result is
`s.conversionResult`. -/
def State.adcRead (ch : Channel) (s : State) : State := (s.startConversion ch).endConversion

end Sys2Proof.Machine
end

