-- ==== Sys2Proof/Machine/Ops.lean ====
section
/-! DEFINITION. The shared operations: the write of `STAGE`, the array lengths, the PWM timer agent, the
serial stream and reset. The block takes no exception and returns from none (60_exceptions.md R260,
R267, R268), so there is no such operation to share. -/

namespace Sys2Proof.Machine

/-- The next-stage function (40_sequencer.md R101). -/
def nextStage : Instr → BitVec 4
  | .pwminit => 1
  | .wininit => 2
  | .banner => 3
  | .sample => 4
  | .fft => 5
  | .bandsel => 6
  | .energy => 7
  | .agc => 8
  | .render => 9
  | .pwmwr => 10
  | .trace => 3

/-- `STAGE <- next(STAGE)`, the end of every operation (R100, R101). -/
def State.advance (i : Instr) (s : State) : State := { s with stage := nextStage i }

/-- `N` of the state's build. -/
def State.len (s : State) : Nat := s.params.frame.len

/-- The arrays SAMPLE indexes have `N` words (20_memory.md R60, R61). -/
def State.sampleSized (s : State) : Bool :=
  decide (s.hann.length = s.len) && decide (s.vReal.length = s.len) && decide (s.vImag.length = s.len)

/-- The arrays FFT indexes have their numbers of words. -/
def State.fftSized (s : State) : Bool :=
  decide (s.vReal.length = s.len) && decide (s.vImag.length = s.len) &&
    decide (s.twRe.length = s.params.frame.half) && decide (s.twIm.length = s.params.frame.half)

/-- The array ENERGY indexes has `N` words. -/
def State.energySized (s : State) : Bool := decide (s.vReal.length = s.len)

/-- `TxByte` of each byte of a text, in order (00_scope.md R10, 49_debug_trace.md R240). -/
def State.transmit (text : List Byte) (s : State) : State := { s with txq := s.txq ++ text }

/-- One timer clock of the running timer (41_pwm_driver.md R115, R116). -/
def Timer.tick (ocr : BitVec 16) (t : Timer) : Timer :=
  match t.dir with
  | .up =>
    if t.cnt = 255 then { ocrAct := ocr.setWidth 8, cnt := 254, dir := .down }
    else { t with cnt := t.cnt + 1 }
  | .down =>
    if t.cnt = 0 then { t with cnt := 1, dir := .up } else { t with cnt := t.cnt - 1 }

/-- `k` timer clocks. -/
def Timer.ticks (ocr : BitVec 16) : Nat → Timer → Timer
  | 0, t => t
  | k + 1, t => Timer.ticks ocr k (t.tick ocr)

/-- `k` clocks of the timer under a configuration: while it does not run, the counter holds (R116). -/
def Timer.clocks (tcfg : BitVec 4) (ocr : BitVec 16) (k : Nat) (t : Timer) : Timer :=
  if timerRunning tcfg then Timer.ticks ocr k t else t

/-- The number of timer clocks that pass around the next operation (U21; log 10). -/
def State.timerClockCount (s : State) : Nat := s.env.ticks.value Config.timerClocks

/-- The timer agent's turn: the clocks that have passed are counted. -/
def State.runTimer (s : State) : State :=
  { s with
    timer := Timer.clocks s.tcfg s.ocr s.timerClockCount s.timer
    env := { s.env with ticks := s.env.ticks.rest } }

/-- The position in the PWM cycle, `0 … 509`: 0 at the counter's zero, 255 at TOP
(41_pwm_driver.md R117; log 11). -/
def Timer.position (t : Timer) : Nat :=
  match t.dir with
  | .up => t.cnt.toNat
  | .down => (Config.pwmPeriod - t.cnt.toNat) % Config.pwmPeriod

/-- `pwm_out`, the level of `PIN_PWM` (R117, 70_reset_and_hazards.md R291). -/
def State.pwmOut (s : State) : Bool :=
  tcfgEn s.tcfg &&
    (decide (s.timer.position < s.timer.ocrAct.toNat) ||
      decide (Config.pwmPeriod - s.timer.ocrAct.toNat ≤ s.timer.position))

/-- The level of port `rst` at this step (10_state.md R46; log 12). -/
def State.resetAsserted (s : State) : Bool := s.env.rst.headD false

/-- This step's level of `rst` is past. -/
def State.dropReset (s : State) : State := { s with env := { s.env with rst := s.env.rst.tail } }

/-- Reset puts every piece of state to its reset value, all at once; the build and the environment stay
(70_reset_and_hazards.md R290, R291). -/
def State.applyReset (s : State) : State := State.resetWith s.params s.env

end Sys2Proof.Machine
end

