-- ==== Sys2Proof/Machine/Agc.lean ====
section
/-! DEFINITION. The EMA smoother and adaptive-gain controller: AGC (47_agc_smoother.md). The constants are
the `NUM` values nearest to the decimals of 00_scope.md R7. -/

namespace Sys2Proof.Machine

def emaAlpha {α : Type} (A : Config.Arith α) : α := A.ofRatio 20 100

def targetLevel {α : Type} (A : Config.Arith α) : α := A.ofRatio 35 100

def agcStep {α : Type} (A : Config.Arith α) : α := A.ofRatio 15 1000

def agcMin {α : Type} (A : Config.Arith α) : α := A.ofRatio 5 100

def agcMax {α : Type} (A : Config.Arith α) : α := A.ofRatio 200 1

/-- Step 1: `(1 − EMA_ALPHA) × EMA + EMA_ALPHA × E` (R201). In binary64 with subnormals a decaying `EMA`
comes to rest at 2^−1073, or at 2^−1074, and is not 0 again, against R210's remark (log 32). -/
def smoothed {α : Type} (A : Config.Arith α) (ema e : α) : α :=
  A.add (A.mul (A.sub (Numeric.one A) (emaAlpha A)) ema) (A.mul (emaAlpha A) e)

/-- Step 2: `min(1.0, EMA × GAIN)` with the new `EMA` and the old `GAIN` (R202, R206). -/
def measured {α : Type} (A : Config.Arith α) (ema gain : α) : Option α :=
  Numeric.min A (Numeric.one A) (A.mul ema gain)

/-- Steps 3 and 4: the gain before its clamp, from the measured level (R203, R204). -/
def gainProduct {α : Type} (A : Config.Arith α) (gain m : α) : α :=
  A.mul gain (A.add (Numeric.one A) (A.mul (agcStep A) (A.sub (targetLevel A) m)))

/-- Step 4: the new gain (R204). -/
def adaptedGain {α : Type} (A : Config.Arith α) (gain m : α) : Option α :=
  Numeric.clamp A (gainProduct A gain m) (agcMin A) (agcMax A)

/-- Step 5: the level, with the new `EMA` and the new `GAIN` (R205, R206). -/
def levelOf {α : Type} (A : Config.Arith α) (ema gain : α) : Option α :=
  Numeric.clamp A (A.sqrt (A.mul ema gain)) (Numeric.zero A) (Numeric.one A)

/-- What AGC computes. -/
structure Control (α : Type) where
  ema : α
  gain : α
  level : α
  deriving DecidableEq, Repr

/-- The five steps in order, each reading what the earlier ones wrote (R200). -/
def agcUpdate {α : Type} (A : Config.Arith α) (ema gain e : α) : Option (Control α) :=
  match measured A (smoothed A ema e) gain with
  | none => none
  | some m =>
    match adaptedGain A gain m with
    | none => none
    | some g =>
      match levelOf A (smoothed A ema e) g with
      | none => none
      | some l => some { ema := smoothed A ema e, gain := g, level := l }

/-- The control state and the level written. -/
def State.setControl (c : Control NumWord) (s : State) : State :=
  { s with ema := c.ema, gain := c.gain, level := c.level }

/-- AGC (R200). -/
def execAgc (s : State) : Host.Outcome State Fault Refusal :=
  match agcUpdate num s.ema s.gain s.e with
  | some c => .next ((s.setControl c).advance .agc)
  | none => .refused .notFinite

end Sys2Proof.Machine
end

