-- ==== Sys2Proof/Machine/BandSel.lean ====
section
/-! DEFINITION. The band selector: BANDSEL (45_band_selector.md). -/

namespace Sys2Proof.Machine

/-- `binLo = 1 + (P1 × (NYQ − 2)) div 1023`, exact (R181, R183). -/
def bandLow (nyq p1 : Nat) : Nat := 1 + p1 * (nyq - 2) / 1023

/-- `w = (P2 × (NYQ − lo − 1)) div 1023`, exact (R182, R183). -/
def bandWidth (nyq lo p2 : Nat) : Nat := p2 * (nyq - lo - 1) / 1023

/-- `hi = clamp(lo + 1 + w, lo + 1, NYQ)` (R182). -/
def bandHigh (nyq lo p2 : Nat) : Nat :=
  (Numeric.clampInt ((lo : Int) + 1 + bandWidth nyq lo p2) ((lo : Int) + 1) nyq).toNat

/-- The band of two readings, in the width of `BINLO` and `BINHI` (R180, R184). -/
def State.setBand (s : State) : State :=
  { s with
    binLo := BitVec.ofNat 7 (bandLow s.params.frame.nyq s.p1.toNat)
    binHi := BitVec.ofNat 7
      (bandHigh s.params.frame.nyq (bandLow s.params.frame.nyq s.p1.toNat) s.p2.toNat) }

/-- `P1 <- AdcRead(1)` (R180). -/
def State.readPot1 (s : State) : State := { s.adcRead .pot1 with p1 := s.conversionResult }

/-- `P2 <- AdcRead(2)` (R180). -/
def State.readPot2 (s : State) : State := { s.adcRead .pot2 with p2 := s.conversionResult }

/-- BANDSEL (R180): the two conversions, POT1 then POT2, then the band. -/
def execBandsel (s : State) : Host.Outcome State Fault Refusal :=
  .next (s.readPot1.readPot2.setBand.advance .bandsel)

end Sys2Proof.Machine
end

