-- ==== Sys2Proof/Machine/Energy.lean ====
section
/-! DEFINITION. The band-energy integrator: ENERGY (46_energy_integrator.md). -/

namespace Sys2Proof.Machine

/-- The sum of the squares of `m`, ascending, each square rounded before it is added (R190, R191, R195). -/
def sumSquares {α : Type} (A : Config.Arith α) (m : List α) : α :=
  m.foldl (fun acc v => A.add acc (A.mul v v)) (Numeric.zero A)

/-- The words `vReal[lo … hi]`, ascending; none where `hi < lo`. -/
def bandWords {α : Type} (A : Config.Arith α) (a : List α) (lo hi : Nat) : List α :=
  (List.range (hi + 1 - lo)).map (fun k => wordAt A a (lo + k))

/-- The mean of the squares over the band (R190, R192; log 27). -/
def bandEnergy {α : Type} (A : Config.Arith α) (a : List α) (lo hi : Nat) : α :=
  A.div (sumSquares A (bandWords A a lo hi)) (A.ofInt ((hi : Int) - lo + 1))

/-- ENERGY (R190). -/
def execEnergy (s : State) : Host.Outcome State Fault Refusal :=
  if s.energySized then
    .next ({ s with e := bandEnergy num s.vReal s.binLo.toNat s.binHi.toNat }.advance .energy)
  else .refused .arraySize

end Sys2Proof.Machine
end

