-- ==== Sys2Proof/Machine/Fft.lean ====
section
/-! DEFINITION. The real FFT engine, radix-2, in place: FFT (44_fft.md R160 to R168), over any record of
arithmetic and any length `2^L`. -/

namespace Sys2Proof.Machine

/-- The frame buffers of a transform: the real and the imaginary words. -/
structure Complexes (α : Type) where
  re : List α
  im : List α
  deriving DecidableEq, Repr

/-- The twiddle ROM of a transform. -/
structure Twiddles (α : Type) where
  re : List α
  im : List α
  deriving DecidableEq, Repr

/-- `swap a[i] with a[r]`. -/
def swapWords {α : Type} (A : Config.Arith α) (a : List α) (i r : Nat) : List α :=
  (a.set i (wordAt A a r)).set r (wordAt A a i)

/-- One iteration of the bit-reversal loop (R163). -/
def reverseStep {α : Type} (A : Config.Arith α) (L : Nat) (f : Complexes α) (i : Nat) : Complexes α :=
  if i < Numeric.bitrev L i then
    { re := swapWords A f.re i (Numeric.bitrev L i), im := swapWords A f.im i (Numeric.bitrev L i) }
  else f

/-- Step 1: the bit-reversal permutation, in place (R163). -/
def bitReverse {α : Type} (A : Config.Arith α) (L : Nat) (f : Complexes α) : Complexes α :=
  (List.range (2 ^ L)).foldl (reverseStep A L) f

/-- `tr = (wr × vReal[b]) − (wi × vImag[b])` (R165). -/
def twistRe {α : Type} (A : Config.Arith α) (wr wi br bi : α) : α := A.sub (A.mul wr br) (A.mul wi bi)

/-- `ti = (wr × vImag[b]) + (wi × vReal[b])` (R165). -/
def twistIm {α : Type} (A : Config.Arith α) (wr wi br bi : α) : α := A.add (A.mul wr bi) (A.mul wi br)

/-- One butterfly on words `a` and `b` with the twiddle `wr + j·wi` (R165). -/
def butterfly {α : Type} (A : Config.Arith α) (wr wi : α) (a b : Nat) (f : Complexes α) : Complexes α :=
  let ar := wordAt A f.re a
  let ai := wordAt A f.im a
  let tr := twistRe A wr wi (wordAt A f.re b) (wordAt A f.im b)
  let ti := twistIm A wr wi (wordAt A f.re b) (wordAt A f.im b)
  { re := (f.re.set b (A.sub ar tr)).set a (A.add ar tr)
    im := (f.im.set b (A.sub ai ti)).set a (A.add ai ti) }

/-- The butterflies `j = 0 … half − 1` of the block that starts at word `k`, in stage `s` (R165). -/
def fftBlock {α : Type} (A : Config.Arith α) (L : Nat) (tw : Twiddles α) (s k : Nat) (f : Complexes α) :
    Complexes α :=
  (List.range (2 ^ (s - 1))).foldl
    (fun g j =>
      butterfly A (wordAt A tw.re (j * 2 ^ (L - s))) (wordAt A tw.im (j * 2 ^ (L - s)))
        (k + j) (k + j + 2 ^ (s - 1)) g)
    f

/-- Stage `s`, with blocks of `m = 2^s` words starting at `k = 0, m, 2m, …` (R165). -/
def fftStage {α : Type} (A : Config.Arith α) (L : Nat) (tw : Twiddles α) (f : Complexes α) (s : Nat) :
    Complexes α :=
  (List.range (2 ^ (L - s))).foldl (fun g q => fftBlock A L tw s (q * 2 ^ s) g) f

/-- Step 2: the stages `s = 1 … L` (R165). -/
def fftStages {α : Type} (A : Config.Arith α) (L : Nat) (tw : Twiddles α) (f : Complexes α) : Complexes α :=
  (List.range L).foldl (fun g s => fftStage A L tw g (s + 1)) f

/-- `sqrt((re × re) + (im × im))` (R166). -/
def magnitude {α : Type} (A : Config.Arith α) (re im : α) : α := A.sqrt (A.add (A.mul re re) (A.mul im im))

/-- Step 3: the magnitudes, in place of the real words; the imaginary words stay (R166, R167). -/
def magnitudes {α : Type} (A : Config.Arith α) (f : Complexes α) : Complexes α :=
  { re := List.zipWith (magnitude A) f.re f.im, im := f.im }

/-- The three steps (R163 to R167). No window is applied inside (R168). -/
def fft {α : Type} (A : Config.Arith α) (L : Nat) (tw : Twiddles α) (f : Complexes α) : Complexes α :=
  magnitudes A (fftStages A L tw (bitReverse A L f))

/-- The transform of a state's frame buffers with its ROM. -/
def State.transformed (s : State) : Complexes NumWord :=
  fft num s.params.frame.log2 { re := s.twRe, im := s.twIm } { re := s.vReal, im := s.vImag }

/-- FFT (R160). -/
def execFft (s : State) : Host.Outcome State Fault Refusal :=
  if s.fftSized then .next ({ s with vReal := s.transformed.re, vImag := s.transformed.im }.advance .fft)
  else .refused .arraySize

end Sys2Proof.Machine
end

