-- ==== Sys2Proof/Machine/Pwm.lean ====
section
/-! DEFINITION. The PWM driver: PWMINIT and PWMWR (41_pwm_driver.md). The timer itself is in Ops.lean. -/

namespace Sys2Proof.Machine

/-- The compare-register store: one indivisible 16-bit write (20_memory.md R64, 41_pwm_driver.md R114). -/
def State.storeOcr (v : BitVec 16) (s : State) : State := { s with ocr := v }

/-- The configuration PWMINIT writes: `INV` = 0, `PRESC` = 0, `MODE` = 1, `EN` = 1 (R110, R111). -/
def phaseCorrectConfig : BitVec 4 := 0b0011

/-- PWMINIT (R110): the compare register is cleared, then the timer enabled. -/
def execPwminit (s : State) : Host.Outcome State Fault Refusal :=
  .next ({ s.storeOcr 0x0000 with tcfg := phaseCorrectConfig }.advance .pwminit)

/-- PWMWR (R113): `OCR <- zext_16(DUTY)`. The outside sees the duty (00_scope.md R13 (a); log 19). -/
def execPwmwr (s : State) : Host.Outcome State Fault Refusal :=
  .next ({ s.storeOcr (s.duty.setWidth 16) with
    seen := { s.seen with duties := s.seen.duties ++ [s.duty] } }.advance .pwmwr)

end Sys2Proof.Machine
end

