-- ==== Sys2Proof/Machine/Render.lean ====
section
/-! DEFINITION. The gamma mapper: RENDER (48_renderer.md). -/

namespace Sys2Proof.Machine

/-- `y = (x × x) × 255.0`, the power `PWM_GAMMA` = 2.0 (R220, R222). -/
def gammaScaled {α : Type} (A : Config.Arith α) (x : α) : α := A.mul (A.mul x x) (A.ofInt 255)

/-- `round_half_up(clamp(LEVEL, 0, 1)^2 · 255)` (R220, R221). -/
def dutyOfLevel {α : Type} (A : Config.Arith α) (level : α) : Option Int :=
  match Numeric.clamp A level (Numeric.zero A) (Numeric.one A) with
  | none => none
  | some x => Numeric.roundHalfUp A (gammaScaled A x)

/-- RENDER (R220). The result lies in `0 … 255` and fits `DUTY` (R223). -/
def execRender (s : State) : Host.Outcome State Fault Refusal :=
  match dutyOfLevel num s.level with
  | some d => .next ({ s with duty := BitVec.ofInt 8 d }.advance .render)
  | none => .refused .notFinite

end Sys2Proof.Machine
end

