-- ==== Sys2Proof/Machine/Sampler.lean ====
section
/-! DEFINITION. The ADC sampler with spin-wait timing: SAMPLE (43_sampler.md). -/

namespace Sys2Proof.Machine

/-- The deadline of sample `i`: `(T0 + i × 104) mod 2^32` (R142). -/
def sampleDeadline (t0 : BitVec 32) (i : Nat) : BitVec 32 := t0 + BitVec.ofNat 32 (i * Config.samplePeriodUs)

/-- `centered = raw − ADC_BIAS`, an exact integer in `−512 … 511` (R144). -/
def centered (raw : BitVec 10) : Int := (raw.toNat : Int) - Config.adcBias

/-- The word stored for one sample: `to_num(centered) × hann[i]` (R144). -/
def windowedSample {α : Type} (A : Config.Arith α) (raw : BitVec 10) (coeff : α) : α :=
  A.mul (A.ofInt (centered raw)) coeff

/-- The first actions: `T0 <- US_NOW`, `I <- 0` (R140, R141). -/
def State.sampleStart (s : State) : State :=
  { s with t0 := s.env.us.read.now, i := 0, env := { s.env with us := s.env.us.read } }

/-- The wait for the deadline of sample `I` (R142). -/
def State.sampleWait (s : State) : State :=
  { s with env := { s.env with us := s.env.us.waitUntil (sampleDeadline s.t0 s.i.toNat) } }

/-- The conversion of sample `I` and the two words stored (R143 to R145). -/
def State.sampleStore (s : State) : State :=
  { s.adcRead .audio with
    raw := s.conversionResult
    vReal := s.vReal.set s.i.toNat
      (windowedSample num s.conversionResult (wordAt num s.hann s.i.toNat))
    vImag := s.vImag.set s.i.toNat (Numeric.zero num)
    i := s.i + 1 }

/-- One trip round the sampler's loop (R140). -/
def State.sampleOne (s : State) : State := s.sampleWait.sampleStore

/-- `k` trips round the sampler's loop. -/
def State.sampleLoop : Nat → State → State
  | 0, s => s
  | k + 1, s => State.sampleLoop k s.sampleOne

/-- SAMPLE (R140): exactly `N` samples, performed to completion as one step
(40_sequencer.md R100, 43_sampler.md R146; log 13). -/
def execSample (s : State) : Host.Outcome State Fault Refusal :=
  if s.sampleSized then .next ((s.sampleStart.sampleLoop s.len).advance .sample)
  else .refused .arraySize

end Sys2Proof.Machine
end

