-- ==== Sys2Proof/Machine/Text.lean ====
section
/-! DEFINITION. The text of the serial stream (49_debug_trace.md R227, R228, R230, R234). -/

namespace Sys2Proof.Machine

/-- The bytes of ASCII characters (R227). -/
def ascii (cs : List Char) : List Byte := cs.map (fun c => BitVec.ofNat 8 c.toNat)

/-- The digit of a number below 10. -/
def digit (d : Nat) : Byte := BitVec.ofNat 8 (48 + d)

/-- The decimal digits of `n` before `tail`, at most `fuel` of them. -/
def decimalDigits : Nat → Nat → List Byte → List Byte
  | 0, _, tail => tail
  | fuel + 1, n, tail =>
    if n < 10 then digit n :: tail else decimalDigits fuel (n / 10) (digit (n % 10) :: tail)

/-- An integer in decimal: no sign, no leading zeros, zero is `0` (R227). A number has at most as many
decimal digits as binary ones. -/
def decimal (n : Nat) : List Byte := decimalDigits (n.log2 + 1) n []

/-- `K` thousandths as text: the whole part, a point, exactly three digits (R228). -/
def thousandths (k : Nat) : List Byte :=
  decimal (k / 1000) ++ ascii ['.'] ++ [digit (k % 1000 / 100), digit (k % 100 / 10), digit (k % 10)]

/-- The number of thousandths of `K`; for a negative `K`, which R228 leaves out, a free value (log 21). -/
def thousandthsOf (k : Int) : Nat := if 0 ≤ k then k.toNat else Config.negativeThousandths k

/-- `fmt3(v)` (R228). -/
def fmt3 {α : Type} (A : Config.Arith α) (v : α) : Option (List Byte) :=
  match Numeric.roundHalfUp A (A.mul v (A.ofInt 1000)) with
  | some k => some (thousandths (thousandthsOf k))
  | none => none

/-- `hz(b) = (b × SAMPLE_RATE_HZ) div N` (R234). -/
def hz (p : Config.Params) (b : Nat) : Nat := b * Config.sampleRateHz / p.frame.len

/-- The three boot lines (R230). -/
def bannerText (p : Config.Params) : List Byte :=
  ascii ['L', 'i', 'n', 'e', 'L', 'i', 'g', 'h', 't', '-', '1', ' ', 'b', 'o', 'o', 't'] ++ p.eol.bytes ++
    ascii ['F', 's', '='] ++ decimal Config.sampleRateHz ++ p.eol.bytes ++
    ascii ['N', '='] ++ decimal p.frame.len ++ p.eol.bytes

/-- The part of the status line that names the band (R234). -/
def bandText (p : Config.Params) (lo hi : Nat) : List Byte :=
  ascii ['b', 'i', 'n', 's', ' '] ++ decimal lo ++ ascii ['-'] ++ decimal hi ++
    ascii [' ', '('] ++ decimal (hz p lo) ++ ascii ['-'] ++ decimal (hz p hi) ++ ascii [' ', 'H', 'z', ')']

/-- The status line with its terminator (R234). -/
def traceLine {α : Type} (A : Config.Arith α) (p : Config.Params) (lo hi : Nat) (level gain ema : α) :
    Option (List Byte) :=
  match fmt3 A level, fmt3 A gain, fmt3 A ema with
  | some l, some g, some m =>
    some (bandText p lo hi ++ ascii [' ', 'l', 'e', 'v', 'e', 'l', ' '] ++ l ++
      ascii [' ', ' ', 'a', 'g', 'c', ' '] ++ g ++ ascii [' ', ' ', 'e', 'm', 'a', ' '] ++ m ++ p.eol.bytes)
  | _, _, _ => none

end Sys2Proof.Machine
end

