-- ==== Sys2Proof/Machine/Trace.lean ====
section
/-! DEFINITION. The boot banner and the debug trace: BANNER and TRACE (49_debug_trace.md). -/

namespace Sys2Proof.Machine

/-- BANNER (R230). Without the trace it only advances `STAGE` (40_sequencer.md R107). -/
def execBanner (s : State) : Host.Outcome State Fault Refusal :=
  if s.params.traceEn then
    .next (({ s with serEn := true }.transmit (bannerText s.params)).advance .banner)
  else .next (s.advance .banner)

/-- The status line of a state (R234, R235); `none` where a field is not finite (log 14). -/
def State.statusLine (s : State) : Option (List Byte) :=
  traceLine num s.params s.binLo.toNat s.binHi.toNat s.level s.gain s.ema

/-- TRACE after its one read of `MS_NOW` gave `clk`: where at least 1000 ms have passed, the line is
emitted and the time of emission kept (R232, R233). -/
def State.traceAt (clk : MsClock) (line : List Byte) (s : State) : State :=
  { s with
    env := { s.env with ms := clk }
    lastMs := if traceDue clk.now s.lastMs then clk.now else s.lastMs
    txq := if traceDue clk.now s.lastMs then s.txq ++ line else s.txq }

/-- TRACE (R232). A field that cannot be printed because it is not finite matters only where a line is
due (60_exceptions.md R262 (c); log 14). -/
def execTrace (s : State) : Host.Outcome State Fault Refusal :=
  if s.params.traceEn then
    match s.statusLine with
    | some line => .next ((s.traceAt s.env.ms.read line).advance .trace)
    | none =>
      if traceDue s.env.ms.read.now s.lastMs then .refused .notFinite
      else .next ((s.traceAt s.env.ms.read []).advance .trace)
  else .next (s.advance .trace)

end Sys2Proof.Machine
end

