-- ==== Sys2Proof/Machine/Window.lean ====
section
/-! DEFINITION. The Hann window table: WININIT (42_window_table.md). -/

namespace Sys2Proof.Machine

/-- WININIT (R130): `hann[n]` for every `n` of the frame; the table is hannTable of Numeric.lean (R131). -/
def execWininit (s : State) : Host.Outcome State Fault Refusal :=
  .next ({ s with hann := hannTable num s.len }.advance .wininit)

end Sys2Proof.Machine
end

