-- ==== Sys2Proof/Machine/Dispatch.lean ====
section
/-! DEFINITION. One arm per operation of the opcode table. -/

namespace Sys2Proof.Machine

def exec (i : Instr) (s : State) : Host.Outcome State Fault Refusal :=
  match i with
  | .pwminit => Sys2Proof.Machine.execPwminit s
  | .wininit => Sys2Proof.Machine.execWininit s
  | .banner => Sys2Proof.Machine.execBanner s
  | .sample => Sys2Proof.Machine.execSample s
  | .fft => Sys2Proof.Machine.execFft s
  | .bandsel => Sys2Proof.Machine.execBandsel s
  | .energy => Sys2Proof.Machine.execEnergy s
  | .agc => Sys2Proof.Machine.execAgc s
  | .render => Sys2Proof.Machine.execRender s
  | .pwmwr => Sys2Proof.Machine.execPwmwr s
  | .trace => Sys2Proof.Machine.execTrace s

end Sys2Proof.Machine
end

