-- ==== Sys2Proof/Machine/Step.lean ====
section
/-! DEFINITION. The step of the machine (40_sequencer.md R100). -/

namespace Sys2Proof.Machine

/-- What follows an operation: the timer agent counts the clocks that have passed (41_pwm_driver.md R116;
log 10) and this step's level of `rst` is past. -/
def afterOperation (t : State) : State := t.runTimer.dropReset

/-- The operation, and what follows it where it answers a next state. -/
def runOperation (i : Instr) (s : State) : Host.Outcome State Fault Refusal :=
  match exec i s with
  | .next t => .next (afterOperation t)
  | .fault r => .fault r
  | .refused r => .refused r

/-- The reserved value that a control register holds, if one does (U16, U17; log 16). -/
def State.reservedValue (s : State) : Option Refusal :=
  if channelLegal s.adcch then
    if tcfgLegal s.tcfg then none else some .reservedTimerConfig
  else some .reservedChannel

/-- One step of the sequencer: decode `STAGE`, perform the operation (R100); a reserved code
(30_encoding.md R83) and a reserved value of `ADCCH` or `TCFG` are refused. -/
def sequencerStep (s : State) : Host.Outcome State Fault Refusal :=
  match decode s.stage, s.reservedValue with
  | .error _, _ => .refused (.reservedStage s.stage)
  | .ok _, some r => .refused r
  | .ok i, none => runOperation i s

/-- One step of the machine: reset where `rst` is asserted (70_reset_and_hazards.md R290), else one step of
the sequencer. -/
def step (s : State) : Host.Outcome State Fault Refusal :=
  if s.resetAsserted then .next s.applyReset.dropReset else sequencerStep s

/-- The operation of a table word, as the next one to execute: `STAGE` holds its code (10_state.md R21;
log 1). -/
def State.withFetchWord (s : State) (nbits w : Nat) : State :=
  { s with stage := opOfTableWord nbits w }

end Sys2Proof.Machine
end

