-- ==== Sys2Proof/RealReading.lean ====
section
/-! DEFINITION. The real-number reading of the rules, which 00_scope.md R9 makes the normative one: the
record of arithmetic over the reals, and the function FFT is to compute (44_fft.md R160). The machine does
not use this file; statements do. -/

namespace Sys2Proof

open Machine

/-- Exact arithmetic on the reals (R9). -/
noncomputable def realArith : Config.Arith ℝ where
  add := fun a b => a + b
  sub := fun a b => a - b
  mul := fun a b => a * b
  div := fun a b => a / b
  neg := fun a => -a
  sqrt := Real.sqrt
  cos := Real.cos
  sin := Real.sin
  ofInt := fun k => (k : ℝ)
  ofRatio := fun n d => (n : ℝ) / (d : ℝ)
  pi := Real.pi
  floor := fun x => ⌊x⌋
  lt := fun a b => decide (a < b)
  finite := fun _ => true

/-- The forward DFT of `len` samples at bin `b`, with no factor (44_fft.md R160, R161). -/
noncomputable def dft (len : ℕ) (x : List ℝ) (b : ℕ) : ℂ :=
  ∑ n ∈ Finset.range len,
    ((x.getD n 0 : ℝ) : ℂ) * Complex.exp (-(2 * (Real.pi : ℂ) * Complex.I * (b : ℂ) * (n : ℂ)) / (len : ℂ))

end Sys2Proof
end

