-- ==== Sys2Proof/Safety.lean ====
section
/-! DEFINITION. What the statements say of a state: numbers in a range, the environment's answers, the
invariant of the machine, and agreement of two states on all the duty sequence depends on. -/

namespace Sys2Proof.Machine

/-- A finite number between two finite numbers. -/
def F64.within (lo hi x : NumWord) : Prop :=
  F64.isFinite x = true ∧ F64.val lo ≤ F64.val x ∧ F64.val x ≤ F64.val hi

/-- A finite number of magnitude at most `2^k`. -/
def F64.boundedBy (k : Nat) (x : NumWord) : Prop := F64.isFinite x = true ∧ F64.mag x ≤ 2 ^ k * F64.scale

/-- A zero of either sign (93_implementation_defined.md U23). -/
def F64.isZero (x : NumWord) : Prop := F64.isFinite x = true ∧ F64.mag x = 0

/-- The value `2^52`, far above every energy (46_energy_integrator.md R194). -/
def F64.pow52 : NumWord := F64.ofInt (2 ^ 52)

/-- The binary64 number nearest to a rational: no finite number is nearer, and of two equally near ones it
is the one with the even last bit (00_scope.md R6, R9: round to nearest even). -/
def F64.nearestTo (q : ℚ) (r : NumWord) : Prop :=
  F64.isFinite r = true ∧
    (∀ c, F64.isFinite c = true → |F64.toRat r - q| ≤ |F64.toRat c - q|) ∧
    ∀ c, F64.isFinite c = true → F64.toRat c ≠ F64.toRat r → |F64.toRat c - q| = |F64.toRat r - q| →
      r.toNat % 2 = 0

/-- A binary64 number than which no finite one is nearer to a real number. -/
def F64.nearestToReal (x : ℝ) (r : NumWord) : Prop :=
  F64.isFinite r = true ∧
    ∀ c, F64.isFinite c = true → |((F64.toRat r : ℚ) : ℝ) - x| ≤ |((F64.toRat c : ℚ) : ℝ) - x|

/-- Two words of one sign that are at most one unit in the last place apart. -/
def F64.lastPlaceApart (r y : NumWord) : Prop :=
  F64.isNeg y = F64.isNeg r ∧ y.toNat % 2 ^ 63 ≤ r.toNat % 2 ^ 63 + 1 ∧ r.toNat % 2 ^ 63 ≤ y.toNat % 2 ^ 63 + 1

/-- The answer a feed gives after `k` others: the script's `k`-th entry, or past its end a free value. -/
def Feed.answer {α : Type} (free : Nat → α) (f : Feed α) (k : Nat) : α :=
  (f.script.drop k).headD (free (f.given + k))

/-- A feed after `k` answers. -/
def Feed.after {α : Type} (f : Feed α) (k : Nat) : Feed α :=
  { script := f.script.drop k, given := f.given + k }

/-- The result of the `k`-th conversion from now. -/
def State.adcAnswer (s : State) (k : Nat) : BitVec 10 := s.env.adc.answer Config.adcAnswer k

/-- The status line of a state can be printed: its three numbers are finite and far from overflow. -/
def State.printable (s : State) : Prop :=
  F64.boundedBy 52 s.level ∧ F64.boundedBy 52 s.gain ∧ F64.boundedBy 52 s.ema

/-- What holds at reset and after every step. Every clause is the spec's, but for two coarse bounds of the
model's own: words of the frame up to 2^26 and energies up to 2^52, which no run comes near
(44_fft.md R170, 10_state.md R31), and which make finiteness inductive. -/
structure State.Inv (s : State) : Prop where
  /-- 30_encoding.md R83. -/
  stage_legal : s.stage.toNat ≤ 10
  /-- 10_state.md R22. -/
  index_range : s.i.toNat ≤ s.len
  /-- 10_state.md R32, R33, 20_memory.md R60. -/
  vReal_length : s.vReal.length = s.len
  vImag_length : s.vImag.length = s.len
  hann_length : s.hann.length = s.len
  /-- 10_state.md R34: the ROM holds the constants of 44_fft.md R164. -/
  rom_re : s.twRe = twiddleRe num s.len
  rom_im : s.twIm = twiddleIm num s.len
  /-- 42_window_table.md R132 (a). -/
  window_range : ∀ x ∈ s.hann, F64.within F64.zero F64.one x
  /-- 45_band_selector.md R184. -/
  band_low : 1 ≤ s.binLo.toNat
  band_order : s.binLo.toNat < s.binHi.toNat
  band_high : s.binHi.toNat ≤ s.params.frame.nyq
  /-- 47_agc_smoother.md R207, 46_energy_integrator.md R194. -/
  ema_range : F64.within F64.zero F64.pow52 s.ema
  gain_range : F64.within (agcMin num) (agcMax num) s.gain
  level_range : F64.within F64.zero F64.one s.level
  energy_range : F64.within F64.zero F64.pow52 s.e
  /-- 43_sampler.md R144 before FFT; afterwards the coarse bound. -/
  frame_real : ∀ x ∈ s.vReal, F64.boundedBy (if s.stage = 4 then 9 else 26) x
  /-- 43_sampler.md R145: FFT's precondition. -/
  frame_imag : s.stage = 4 → ∀ x ∈ s.vImag, F64.isZero x
  /-- 10_state.md R35. -/
  config_legal : tcfgLegal s.tcfg = true
  /-- 10_state.md R36. -/
  ocr_high : s.ocr.toNat < 256
  /-- 41_pwm_driver.md R116: at TOP the counter has not turned yet. -/
  timer_turn : s.timer.dir = .down → s.timer.cnt ≠ 255
  /-- 10_state.md R39. -/
  channel_legal : s.adcch ≠ 3
  /-- 10_state.md R42. -/
  adc_idle : s.inFlight = none
  /-- 49_debug_trace.md R227. -/
  text_ascii : ∀ c ∈ s.txq, c.toNat < 128

/-- Two states agree on everything the duty sequence depends on (70_reset_and_hazards.md R305). They may
differ in the two clocks, in `TRACE_EN` and `EOL`, in the timer and its clocks, in the serial side and in
`T0`, `LAST_MS`, `ADCCH` and the conversions seen. -/
structure State.DutyAgree (s t : State) : Prop where
  frame : s.params.frame = t.params.frame
  stage : s.stage = t.stage
  i : s.i = t.i
  raw : s.raw = t.raw
  p1 : s.p1 = t.p1
  p2 : s.p2 = t.p2
  binLo : s.binLo = t.binLo
  binHi : s.binHi = t.binHi
  duty : s.duty = t.duty
  ema : s.ema = t.ema
  gain : s.gain = t.gain
  e : s.e = t.e
  level : s.level = t.level
  vReal : s.vReal = t.vReal
  vImag : s.vImag = t.vImag
  hann : s.hann = t.hann
  twRe : s.twRe = t.twRe
  twIm : s.twIm = t.twIm
  tcfg : s.tcfg = t.tcfg
  ocr : s.ocr = t.ocr
  duties : s.seen.duties = t.seen.duties
  adc : s.env.adc = t.env.adc
  rst : s.env.rst = t.env.rst

end Sys2Proof.Machine
end

