-- ==== Sys2Proof/Certificates/Slice0/Obligations.lean ====
section
/-! DEFINITION. The statements for the provers, each citing the rules of spec/ it formalises. -/

open Sys2Proof Sys2Proof.Machine

/-! The step, the codes and the sequence of operations -/

/-- 40_sequencer.md R100: where no reset is asserted, a step performs the operation `STAGE` encodes. What
the model's step adds: after the operation the timer counts the clocks that have passed (log 10) and this
step's level of `rst` is past (log 12); a state whose `ADCCH` or `TCFG` holds a reserved value is refused
(U16, U17, log 16). -/
def Obligations.StepRunsDecodedOperation : Prop :=
  ∀ (s : State) (i : Instr), s.resetAsserted = false → decode s.stage = .ok i → i.wf = true →
    (s.adcch ≠ 3 → tcfgLegal s.tcfg = true →
      (∀ t, exec i s = .next t → step s = .next { t with
        timer := Timer.clocks t.tcfg t.ocr (t.env.ticks.value Config.timerClocks) t.timer
        env := { t.env with ticks := t.env.ticks.rest, rst := t.env.rst.tail } }) ∧
      ∀ r, exec i s = .refused r → step s = .refused r) ∧
    (s.adcch ≠ 3 → tcfgLegal s.tcfg = false → step s = .refused .reservedTimerConfig) ∧
    (s.adcch = 3 → step s = .refused .reservedChannel)

/-- 30_encoding.md R83: codes 11 to 15 are invalid and refused; the next-stage function never produces
them, and reset sets `STAGE` to 0. -/
def Obligations.ReservedCodesRefused : Prop :=
  (∀ c : BitVec 4, 11 ≤ c.toNat → decode c = .error (.reservedCode c)) ∧
  (∀ s : State, s.resetAsserted = false → 11 ≤ s.stage.toNat → step s = .refused (.reservedStage s.stage)) ∧
  (∀ i : Instr, (nextStage i).toNat ≤ 10) ∧
  ∀ (p : Config.Params) (v : Env), (State.resetWith p v).stage = 0

/-- 40_sequencer.md R101: the next-stage table; no operation goes anywhere else. -/
def Obligations.NextStageTable : Prop :=
  ∀ s t : State,
    (exec .pwminit s = .next t → t.stage = 1) ∧ (exec .wininit s = .next t → t.stage = 2) ∧
    (exec .banner s = .next t → t.stage = 3) ∧ (exec .sample s = .next t → t.stage = 4) ∧
    (exec .fft s = .next t → t.stage = 5) ∧ (exec .bandsel s = .next t → t.stage = 6) ∧
    (exec .energy s = .next t → t.stage = 7) ∧ (exec .agc s = .next t → t.stage = 8) ∧
    (exec .render s = .next t → t.stage = 9) ∧ (exec .pwmwr s = .next t → t.stage = 10) ∧
    (exec .trace s = .next t → t.stage = 3)

/-- 30_encoding.md R81: the code of each operation, written out. -/
def Obligations.OperationCodes : Prop :=
  decode 0b0000#4 = .ok .pwminit ∧ decode 0b0001#4 = .ok .wininit ∧ decode 0b0010#4 = .ok .banner ∧
  decode 0b0011#4 = .ok .sample ∧ decode 0b0100#4 = .ok .fft ∧ decode 0b0101#4 = .ok .bandsel ∧
  decode 0b0110#4 = .ok .energy ∧ decode 0b0111#4 = .ok .agc ∧ decode 0b1000#4 = .ok .render ∧
  decode 0b1001#4 = .ok .pwmwr ∧ decode 0b1010#4 = .ok .trace

/-- 30_encoding.md R80, R81: decoding and encoding agree in both directions. -/
def Obligations.DecodeEncodeAgree : Prop :=
  (∀ i : Instr, i.wf = true → decode (encode i) = .ok i) ∧
  ∀ (c : BitVec 4) (i : Instr), decode c = .ok i → encode i = c

/-- 30_encoding.md R86: a sequence is encoded as its codes in order, two per byte, the first in the high
nibble, a trailing half byte padded with 0; `BOOT` is 0x01 0x2- and `FRAME` is 0x34 0x56 0x78 0x9A. -/
def Obligations.SequencePacking : Prop :=
  (∀ ops : List Instr, decodeSeq (encodeSeq ops) = .ok ops ∧
    (packCodes (encodeSeq ops)).length = (ops.length + 1) / 2 ∧
    ∀ (k : Nat) (i : Instr), ops[k]? = some i →
      ((packCodes (encodeSeq ops)).getD (k / 2) 0).toNat / (if k % 2 = 0 then 16 else 1) % 16 =
        (encode i).toNat) ∧
  packCodes (encodeSeq (Pseudo.expand .boot)) = [0x01, 0x20] ∧
  packCodes (encodeSeq (Pseudo.expand .frame)) = [0x34, 0x56, 0x78, 0x9A]

/-- 30_encoding.md R84: an operation is written as its mnemonic alone, one per line; a comment runs from
`;` to the end of the line. That a space before the `;` is dropped is the model's choice (log 30). -/
def Obligations.AssemblerReadsMnemonics : Prop :=
  (∀ ops : List Instr, assemble (ops.map Instr.mnemonic) = some ops) ∧
  ∀ (i : Instr) (comment : List Char),
    assembleLine (i.mnemonic ++ [';'] ++ comment) = some [i] ∧
    assembleLine (i.mnemonic ++ [' ', ';'] ++ comment) = some [i]

/-- 30_encoding.md R85: `RUN k` is `BOOT` and then `FRAME` `k` times, and it is a program: a prefix of
the one fixed sequence. -/
def Obligations.RunPseudoOpIsProgram : Prop :=
  ∀ k : Nat, programWf (Pseudo.expand (.run k)) = true ∧ (Pseudo.expand (.run k)).length = 3 + 8 * k ∧
    Pseudo.expand (.run (k + 1)) = Pseudo.expand (.run k) ++ Pseudo.expand .frame

/-- 40_sequencer.md R103, R104, 30_encoding.md R85: from reset, in every build and environment in which
no reset is asserted, `RUN k` is performed to its end: after `3 + 8k` steps SAMPLE is next, `k` duties
have been written, and each frame has requested `N` conversions of channel 0, then one of channel 1 and
one of channel 2. -/
def Obligations.RunFromResetCompletesFrames : Prop :=
  ∀ (p : Config.Params) (v : Env) (k : Nat), (∀ b ∈ v.rst, b = false) →
    ∃ t : State, Host.Core.run core (3 + 8 * k) (State.resetWith p v) = .next t ∧ t.stage = 3 ∧
      t.seen.duties.length = k ∧
      t.seen.conversions = (List.replicate k (List.replicate p.frame.len (0 : BitVec 2) ++ [1, 2])).flatten

/-! Reset -/

/-- 70_reset_and_hazards.md R291, R292, 44_fft.md R164: the values the spec gives, with each word of the
twiddle ROM written out and its first words exactly 1 and 0. The rows without a value (log 5, 6) are not
stated. -/
def Obligations.ResetValues : Prop :=
  ∀ (p : Config.Params) (v : Env),
    (State.resetWith p v).stage = 0 ∧ (State.resetWith p v).i = 0 ∧ (State.resetWith p v).duty = 0 ∧
    (State.resetWith p v).lastMs = 0 ∧ F64.toRat (State.resetWith p v).ema = 0 ∧
    F64.toRat (State.resetWith p v).gain = 1 ∧
    ((State.resetWith p v).twRe.length = p.frame.half ∧ (State.resetWith p v).twIm.length = p.frame.half ∧
      (∀ k, k < p.frame.half →
        (State.resetWith p v).twRe[k]? = some (Trig.cos
          (F64.div (F64.mul (F64.mul 0x4000000000000000 0x400921FB54442D18) (F64.ofInt k))
            (F64.ofInt p.frame.len))) ∧
        (State.resetWith p v).twIm[k]? = some (F64.neg (Trig.sin
          (F64.div (F64.mul (F64.mul 0x4000000000000000 0x400921FB54442D18) (F64.ofInt k))
            (F64.ofInt p.frame.len))))) ∧
      (State.resetWith p v).twRe[0]? = some 0x3FF0000000000000 ∧
      ∃ w, (State.resetWith p v).twIm[0]? = some w ∧ F64.isZero w) ∧
    (State.resetWith p v).tcfg = 0b0000 ∧ (State.resetWith p v).ocr = 0x0000 ∧
    (State.resetWith p v).timer.ocrAct = 0 ∧ (State.resetWith p v).timer.cnt = 0 ∧
    (State.resetWith p v).timer.dir = .up ∧ (State.resetWith p v).adcch = 0 ∧
    (State.resetWith p v).inFlight = none ∧ (State.resetWith p v).serEn = false ∧
    (State.resetWith p v).txq = [] ∧ (State.resetWith p v).pwmOut = false

/-- 70_reset_and_hazards.md R290: in every state an asserted reset puts every piece of state to its reset
value, all at once; the next step starts at `STAGE` = 0. That the build and the environment stay is the
model's (log 2, 12). -/
def Obligations.ResetAssertedRestoresState : Prop :=
  ∀ s : State, s.resetAsserted = true →
    ∃ t : State, step s = .next t ∧
      t = State.resetWith s.params { s.env with rst := s.env.rst.tail } ∧ decode t.stage = .ok .pwminit

/-! The PWM driver and the PWM timer -/

/-- 41_pwm_driver.md R110. -/
def Obligations.PwminitConfiguresTimer : Prop :=
  ∀ s : State, ∃ t : State, exec .pwminit s = .next t ∧
    t = { s with ocr := 0x0000, tcfg := 0b0011, stage := 1 } ∧
    tcfgInv t.tcfg = false ∧ tcfgPresc t.tcfg = false ∧ tcfgMode t.tcfg = true ∧ tcfgEn t.tcfg = true

/-- 41_pwm_driver.md R113: `OCR <- zext_16(DUTY)`, one write. The duty is seen (log 19). -/
def Obligations.PwmwrStoresDuty : Prop :=
  ∀ s : State, ∃ t : State, exec .pwmwr s = .next t ∧ t.ocr.toNat = s.duty.toNat ∧ t.stage = 10 ∧
    t = { s with
      ocr := t.ocr
      seen := { s.seen with duties := s.seen.duties ++ [s.duty] }
      stage := t.stage }

/-- 41_pwm_driver.md R116, R115: one clock of the timer, for every position; that the timer takes one per
clock while `EN` and `MODE` are 1, and that it holds while `EN` is 0. `OCR_ACT` takes the compare value at TOP and at no other time. -/
def Obligations.TimerTickTransitions : Prop :=
  ∀ (ocr : BitVec 16) (a c : BitVec 8),
    (c ≠ 255 → Timer.tick ocr ⟨a, c, .up⟩ = ⟨a, c + 1, .up⟩) ∧
    Timer.tick ocr ⟨a, 255, .up⟩ = ⟨BitVec.ofNat 8 ocr.toNat, 254, .down⟩ ∧
    (c ≠ 0 → Timer.tick ocr ⟨a, c, .down⟩ = ⟨a, c - 1, .down⟩) ∧
    Timer.tick ocr ⟨a, 0, .down⟩ = ⟨a, 1, .up⟩ ∧
    ∀ (tcfg : BitVec 4) (k : Nat) (t : Timer),
      (tcfgEn tcfg = false → Timer.clocks tcfg ocr k t = t) ∧
      (tcfgEn tcfg = true → tcfgMode tcfg = true →
        Timer.clocks tcfg ocr 0 t = t ∧
        Timer.clocks tcfg ocr (k + 1) t = Timer.clocks tcfg ocr k (Timer.tick ocr t))

/-- 41_pwm_driver.md R112, R115, R117, 10_state.md R43: after one period of 510 clocks the running timer is at
the same position, and `OCR_ACT` has taken `OCR`. The counter's zero is one position whichever way it
counts (log 11). -/
def Obligations.TimerPeriodIs510 : Prop :=
  ∀ (ocr : BitVec 16) (t : Timer), (t.dir = .down → t.cnt ≠ 255) →
    (Timer.ticks ocr 510 t).position = t.position ∧
    (Timer.ticks ocr 510 t).ocrAct = BitVec.ofNat 8 ocr.toNat ∧
    ∀ k, 0 < k → k < 510 → (Timer.ticks ocr k t).position ≠ t.position

/-- 41_pwm_driver.md R117: with a steady compare value `d` the pin is high for exactly `2·d` of the 510
clocks of a period, from whatever position the period is counted; while `TCFG.EN` = 0 it is low. -/
def Obligations.PwmHighTime : Prop :=
  (∀ s : State, timerRunning s.tcfg = true → (s.timer.dir = .down → s.timer.cnt ≠ 255) →
    s.timer.ocrAct = BitVec.ofNat 8 s.ocr.toNat →
    ((List.range 510).filter
      (fun k => ({ s with timer := Timer.clocks s.tcfg s.ocr k s.timer } : State).pwmOut)).length =
        2 * s.timer.ocrAct.toNat) ∧
  ∀ s : State, tcfgEn s.tcfg = false → s.pwmOut = false

/-- 41_pwm_driver.md R118: duty 0 is fully off, 255 fully on. -/
def Obligations.PinEndPoints : Prop :=
  ∀ s : State, tcfgEn s.tcfg = true →
    (s.timer.ocrAct = 0 → (s.timer.dir = .down → s.timer.cnt ≠ 255) → s.pwmOut = false) ∧
    (s.timer.ocrAct = 255 → s.pwmOut = true)

/-! The window -/

/-- 42_window_table.md R130, R131: each coefficient is `0.5 × (1 − cos((2 × π × n) / (N − 1)))`, evaluated
in this order, with the binary64 words of 0.5, 1, 2 and π. -/
def Obligations.WininitFillsTable : Prop :=
  ∀ s : State, ∃ t : State, exec .wininit s = .next t ∧ t.stage = 2 ∧ t.hann.length = s.len ∧
    (∀ n, n < s.len → t.hann[n]? = some
      (F64.mul 0x3FE0000000000000 (F64.sub 0x3FF0000000000000 (Trig.cos
        (F64.div (F64.mul (F64.mul 0x4000000000000000 0x400921FB54442D18) (F64.ofInt n))
          (F64.ofInt (s.len - 1))))))) ∧
    t = { s with hann := t.hann, stage := t.stage }

/-- 42_window_table.md R132 (a), (b) in binary64: every coefficient is in `[0, 1]`, and the two end points
are exactly 0, whatever the library does in the last place. -/
def Obligations.WindowInBinary64 : Prop :=
  ∀ p : Config.FrameLen,
    (∀ n, n < p.len → F64.within F64.zero F64.one (hannCoeff num p.len n)) ∧
    hannCoeff num p.len 0 = F64.zero ∧ hannCoeff num p.len (p.len - 1) = F64.zero

/-- 42_window_table.md R131, R132 over the reals: the half-angle form, range, end points, symmetry, the
two middle coefficients the largest and below 1, and strictly increasing up to `N/2 − 1`. -/
def Obligations.HannWindowReal : Prop :=
  ∀ p : Config.FrameLen,
    (∀ n, n < p.len →
      hannCoeff realArith p.len n = Real.sin (Real.pi * (n : ℝ) / ((p.len : ℝ) - 1)) ^ 2 ∧
      0 ≤ hannCoeff realArith p.len n ∧ hannCoeff realArith p.len n < 1 ∧
      hannCoeff realArith p.len n = hannCoeff realArith p.len (p.len - 1 - n) ∧
      hannCoeff realArith p.len n ≤ hannCoeff realArith p.len (p.len / 2 - 1)) ∧
    hannCoeff realArith p.len 0 = 0 ∧ hannCoeff realArith p.len (p.len - 1) = 0 ∧
    hannCoeff realArith p.len (p.len / 2 - 1) = hannCoeff realArith p.len (p.len / 2) ∧
    ∀ m n, m < n → n ≤ p.len / 2 - 1 → hannCoeff realArith p.len m < hannCoeff realArith p.len n

/-- 42_window_table.md R135 over the reals: `Σ hann[n] = (N − 1)/2` and `Σ hann[n]² = 3(N − 1)/8`. -/
def Obligations.HannSumsReal : Prop :=
  ∀ p : Config.FrameLen,
    ∑ n ∈ Finset.range p.len, hannCoeff realArith p.len n = ((p.len : ℝ) - 1) / 2 ∧
    ∑ n ∈ Finset.range p.len, hannCoeff realArith p.len n ^ 2 = 3 * ((p.len : ℝ) - 1) / 8

/-- 93_implementation_defined.md U3, 92_eei_decisions.md P3, 42_window_table.md R131, R132: whatever the
free last place is, the configuration functions give results in `[−1, 1]`, `cos` is 1 at 0 and at the
binary64 word of 2π, and `sin` is 0 at 0; at every argument of the window and of the twiddle ROM each is
within one unit in the last place of the binary64 number nearest to the real cosine or sine; and the word
of π is the nearest one. That a library's value is a neighbour of the correctly rounded one is read from
P3 (log 4). -/
def Obligations.TrigContract : Prop :=
  (∀ x : NumWord, F64.within (F64.neg F64.one) F64.one (Trig.cos x) ∧
    (F64.isFinite x = true → F64.within (F64.neg F64.one) F64.one (Trig.sin x))) ∧
  (∀ x : NumWord, F64.isZero x → Trig.cos x = F64.one ∧ F64.isZero (Trig.sin x)) ∧
  Trig.cos 0x401921FB54442D18 = F64.one ∧
  F64.nearestToReal Real.pi 0x400921FB54442D18 ∧
  (∀ (p : Config.FrameLen) (n : Nat) (x : NumWord), n < p.len →
    x = F64.div (F64.mul (F64.mul 0x4000000000000000 0x400921FB54442D18) (F64.ofInt n))
      (F64.ofInt (p.len - 1)) →
    ∃ r, F64.nearestToReal (Real.cos ((F64.toRat x : ℚ) : ℝ)) r ∧ F64.lastPlaceApart r (Trig.cos x)) ∧
  ∀ (p : Config.FrameLen) (k : Nat) (x : NumWord), k < p.half →
    x = F64.div (F64.mul (F64.mul 0x4000000000000000 0x400921FB54442D18) (F64.ofInt k)) (F64.ofInt p.len) →
    (∃ r, F64.nearestToReal (Real.cos ((F64.toRat x : ℚ) : ℝ)) r ∧ F64.lastPlaceApart r (Trig.cos x)) ∧
    ∃ r, F64.nearestToReal (Real.sin ((F64.toRat x : ℚ) : ℝ)) r ∧ F64.lastPlaceApart r (Trig.sin x)

/-! The sampler -/

/-- 43_sampler.md R140, R142 to R145, R150: SAMPLE stores, for each of the `N` conversions, the exact
centred value times the coefficient, and 0; the clock it leaves is that of `N` waits in order, for the
deadlines from `T0`; nothing else of the block changes but `T0`, `I`, `RAW`, `ADCCH` and `STAGE`. An array of
another length is refused (20_memory.md R61), which is the model's choice (log 17). -/
def Obligations.SampleAcquiresFrame : Prop :=
  (∀ s : State, s.sampleSized = true →
    ∃ t : State, exec .sample s = .next t ∧
      t.vReal.length = s.len ∧
      (∀ i, i < s.len → t.vReal[i]? =
        some (F64.mul (F64.ofInt (((s.adcAnswer i).toNat : Int) - 512)) (s.hann.getD i F64.zero))) ∧
      t.vImag = List.replicate s.len F64.zero ∧
      t.t0 = s.env.us.now + (s.env.us.feed.value Config.usAdvance).setWidth 32 ∧
      t.i.toNat = s.len ∧ t.raw = s.adcAnswer (s.len - 1) ∧ t.adcch = 0 ∧ t.inFlight = none ∧ t.stage = 4 ∧
      t.seen = { s.seen with conversions := s.seen.conversions ++ List.replicate s.len 0 } ∧
      t.env = { s.env with us := t.env.us, adc := s.env.adc.after s.len } ∧
      t.env.us = (List.range s.len).foldl (fun c i => c.waitUntil (sampleDeadline t.t0 i)) s.env.us.read ∧
      t = { s with
        t0 := t.t0, i := t.i, raw := t.raw, vReal := t.vReal, vImag := t.vImag, adcch := t.adcch
        inFlight := t.inFlight, seen := t.seen, env := t.env, stage := t.stage }) ∧
  ∀ s : State, s.sampleSized = false → exec .sample s = .refused .arraySize

/-- 43_sampler.md R142, R147: the deadline of sample `i` is `(T0 + i × 104) mod 2^32`; it is reached exactly
where `(US_NOW − D) mod 2^32` is in `0 … 2^31 − 1`, across the clock's wrap; a wait ends with the deadline
reached; a deadline already past is passed at the first read of the clock; and otherwise the wait ends at
most `2^31 − 2` past the deadline, since no advance is above `2^31 − 1` (60_exceptions.md R270 (c); log 8). -/
def Obligations.SpinWaitMeetsDeadline : Prop :=
  (∀ (t0 : BitVec 32) (i : Nat), (sampleDeadline t0 i).toNat = (t0.toNat + i * 104) % 2 ^ 32) ∧
  (∀ now d : BitVec 32, deadlineReached now d = true ↔ (now - d).toNat < 2 ^ 31) ∧
  (∀ (d : BitVec 32) (c : UsClock), deadlineReached (c.waitUntil d).now d = true) ∧
  (∀ (d : BitVec 32) (c : UsClock), deadlineReached c.read.now d = true → c.waitUntil d = c.read) ∧
  ∀ (d : BitVec 32) (c : UsClock), deadlineReached c.read.now d = false →
    ((c.waitUntil d).now - d).toNat ≤ 2 ^ 31 - 2

/-- 43_sampler.md R141: sample 0 is taken at the first poll after `T0` is taken. -/
def Obligations.FirstSampleWithoutWait : Prop :=
  ∀ s : State, s.sampleStart.sampleWait.env.us = s.env.us.read.read

/-! The FFT -/

/-- 44_fft.md R160, R169: over the reals the three steps compute the magnitudes of the forward DFT, with no
scale factor, from a frame with zero imaginary part. -/
def Obligations.FftComputesDft : Prop :=
  ∀ (p : Config.FrameLen) (x : List ℝ), x.length = p.len →
    ∀ b, b < p.len →
      (fft realArith p.log2 ⟨twiddleRe realArith p.len, twiddleIm realArith p.len⟩
        ⟨x, List.replicate p.len 0⟩).re[b]? = some ‖dft p.len x b‖

/-- 44_fft.md R160, R166, R167: FFT replaces all `N` words of both buffers; each word of `vReal` is the
rounded root of the sum of the squares of what the butterflies left, whose imaginary parts stay in
`vImag`; nothing else changes but `STAGE`. -/
def Obligations.FftReplacesFrame : Prop :=
  (∀ s : State, s.fftSized = true →
    ∃ (t : State) (f : Complexes NumWord), exec .fft s = .next t ∧
      f = fftStages num s.params.frame.log2 ⟨s.twRe, s.twIm⟩
        (bitReverse num s.params.frame.log2 ⟨s.vReal, s.vImag⟩) ∧
      f.re.length = s.len ∧ f.im.length = s.len ∧ t.vImag = f.im ∧ t.vReal.length = s.len ∧
      (∀ b, b < s.len → t.vReal[b]? = some (F64.sqrt (F64.add
        (F64.mul (f.re.getD b F64.zero) (f.re.getD b F64.zero))
        (F64.mul (f.im.getD b F64.zero) (f.im.getD b F64.zero))))) ∧
      t.stage = 5 ∧ t = { s with vReal := t.vReal, vImag := t.vImag, stage := t.stage }) ∧
  ∀ s : State, s.fftSized = false → exec .fft s = .refused .arraySize

/-- 44_fft.md R163, 00_scope.md R11: the in-place swaps permute the frame by bit reversal, in any arithmetic:
`bitrev_L(i)` is below `2^L` and its bit `j` is bit `L − 1 − j` of `i`. -/
def Obligations.BitReversalPermutes : Prop :=
  ∀ (α : Type) (A : Config.Arith α) (L : Nat) (f : Complexes α),
    f.re.length = 2 ^ L → f.im.length = 2 ^ L →
    ∀ i, i < 2 ^ L →
      (bitReverse A L f).re[i]? = f.re[Numeric.bitrev L i]? ∧
      (bitReverse A L f).im[i]? = f.im[Numeric.bitrev L i]? ∧
      Numeric.bitrev L i < 2 ^ L ∧
      (∀ j, j < L → (Numeric.bitrev L i).testBit j = i.testBit (L - 1 - j)) ∧
      Numeric.bitrev L (Numeric.bitrev L i) = i

/-- 44_fft.md R165: one butterfly writes words `a` and `b` from their values before it and no other. -/
def Obligations.ButterflyUpdatesTwoWords : Prop :=
  ∀ (wr wi : NumWord) (a b : Nat) (f : Complexes NumWord) (ar ai br bi : NumWord), a ≠ b →
    f.re[a]? = some ar → f.im[a]? = some ai → f.re[b]? = some br → f.im[b]? = some bi →
    (butterfly num wr wi a b f).re[a]? =
      some (F64.add ar (F64.sub (F64.mul wr br) (F64.mul wi bi))) ∧
    (butterfly num wr wi a b f).re[b]? =
      some (F64.sub ar (F64.sub (F64.mul wr br) (F64.mul wi bi))) ∧
    (butterfly num wr wi a b f).im[a]? =
      some (F64.add ai (F64.add (F64.mul wr bi) (F64.mul wi br))) ∧
    (butterfly num wr wi a b f).im[b]? =
      some (F64.sub ai (F64.add (F64.mul wr bi) (F64.mul wi br))) ∧
    ∀ k, k ≠ a → k ≠ b →
      (butterfly num wr wi a b f).re[k]? = f.re[k]? ∧ (butterfly num wr wi a b f).im[k]? = f.im[k]?

/-- 44_fft.md R171: zero in, zero out, exactly. -/
def Obligations.SilentFrameTransformsToZero : Prop :=
  ∀ s : State, s.fftSized = true → (∀ x ∈ s.vReal, F64.isZero x) → (∀ x ∈ s.vImag, F64.isZero x) →
    (∀ x ∈ s.twRe, F64.isFinite x = true) → (∀ x ∈ s.twIm, F64.isFinite x = true) →
    ∃ t : State, exec .fft s = .next t ∧ (∀ x ∈ t.vReal, x = F64.zero) ∧ ∀ x ∈ t.vImag, F64.isZero x

/-! The band selector and the energy -/

/-- 45_band_selector.md R180, R181, R182, R183: the two conversions in order and the exact floors; the
clamp never changes the upper edge. Nothing else of the block changes but `ADCCH` and `STAGE`. -/
def Obligations.BandselComputesBand : Prop :=
  ∀ s : State, ∃ t : State, exec .bandsel s = .next t ∧
    t.p1 = s.adcAnswer 0 ∧ t.p2 = s.adcAnswer 1 ∧ t.adcch = 2 ∧ t.inFlight = none ∧
    t.binLo.toNat = 1 + t.p1.toNat * (s.params.frame.nyq - 2) / 1023 ∧
    t.binHi.toNat =
      t.binLo.toNat + 1 + t.p2.toNat * (s.params.frame.nyq - t.binLo.toNat - 1) / 1023 ∧
    t.stage = 6 ∧
    t.seen = { s.seen with conversions := s.seen.conversions ++ [1, 2] } ∧
    t.env = { s.env with adc := s.env.adc.after 2 } ∧
    t = { s with
      p1 := t.p1, p2 := t.p2, binLo := t.binLo, binHi := t.binHi, adcch := t.adcch
      inFlight := t.inFlight, seen := t.seen, env := t.env, stage := t.stage }

/-- 45_band_selector.md R184: after every BANDSEL `1 ≤ BINLO < BINHI ≤ NYQ`. -/
def Obligations.BandStaysInRange : Prop :=
  ∀ s : State, ∃ t : State, exec .bandsel s = .next t ∧
    1 ≤ t.binLo.toNat ∧ t.binLo.toNat < t.binHi.toNat ∧ t.binHi.toNat ≤ t.params.frame.nyq ∧
    t.params.frame.nyq = t.params.frame.len / 2 - 1 ∧ 2 ≤ t.binHi.toNat + 1 - t.binLo.toNat

/-- 45_band_selector.md R186: the pot boundaries of the source's S5 and the derived corners; `NYQ − 1` is
reached only at `P1` = 1023. -/
def Obligations.PotBoundaryBands : Prop :=
  ∀ s : State, ∃ t : State, exec .bandsel s = .next t ∧
    (s.adcAnswer 0 = 1023 → s.adcAnswer 1 = 0 →
      t.binLo.toNat = s.params.frame.nyq - 1 ∧ t.binHi.toNat = s.params.frame.nyq) ∧
    (s.adcAnswer 0 = 0 → s.adcAnswer 1 = 1023 → t.binLo.toNat = 1 ∧ t.binHi.toNat = s.params.frame.nyq) ∧
    (s.adcAnswer 0 = 0 → s.adcAnswer 1 = 0 → t.binLo.toNat = 1 ∧ t.binHi.toNat = 2) ∧
    (s.adcAnswer 0 = 1023 → s.adcAnswer 1 = 1023 →
      t.binLo.toNat = s.params.frame.nyq - 1 ∧ t.binHi.toNat = s.params.frame.nyq) ∧
    (s.adcAnswer 0 = 512 → s.adcAnswer 1 = 512 →
      (t.binLo.toNat, t.binHi.toNat) = match s.params.frame with
        | .n128 => (31, 47)
        | .n256 => (63, 95)) ∧
    (s.adcAnswer 0 = 1022 → t.binLo.toNat = s.params.frame.nyq - 2) ∧
    (t.binLo.toNat = s.params.frame.nyq - 1 ↔ s.adcAnswer 0 = 1023)

/-- 46_energy_integrator.md R190, R191, R195: the squares of the stored magnitudes, each rounded, added
ascending from `BINLO` with one rounded sum per bin from 0, divided by the number of bins. What it says of a
band with `BINHI` below `BINLO`, which no run reaches, is the model's reading (log 27); that an array of
another length is refused (20_memory.md R61) is its choice (log 17). -/
def Obligations.EnergyIsBandMean : Prop :=
  (∀ s : State, s.energySized = true →
    ∃ t : State, exec .energy s = .next t ∧
      t.e = F64.div
        ((List.range' s.binLo.toNat (s.binHi.toNat + 1 - s.binLo.toNat)).foldl
          (fun acc b => F64.add acc (F64.mul (s.vReal.getD b F64.zero) (s.vReal.getD b F64.zero))) F64.zero)
        (F64.ofInt ((s.binHi.toNat : Int) - s.binLo.toNat + 1)) ∧
      t.stage = 7 ∧ t = { s with e := t.e, stage := t.stage }) ∧
  ∀ s : State, s.energySized = false → exec .energy s = .refused .arraySize

/-- 46_energy_integrator.md R194: over a legal band of bounded magnitudes the energy is finite and not
negative, and it is exactly 0 for a silent band. The bound on the magnitudes is the model's coarse one. -/
def Obligations.EnergyNonNegative : Prop :=
  ∀ s : State, s.energySized = true → s.binLo.toNat < s.binHi.toNat →
    (∀ x ∈ s.vReal, F64.boundedBy 26 x) →
    ∃ t : State, exec .energy s = .next t ∧ F64.within F64.zero F64.pow52 t.e ∧
      ((∀ b, s.binLo.toNat ≤ b → b ≤ s.binHi.toNat → F64.isZero (s.vReal.getD b F64.zero)) →
        t.e = F64.zero)

/-! The control loop -/

/-- 47_agc_smoother.md R200 to R206, with the words of 0.2, 0.35, 0.015, 0.05 and 200: the five steps in
order. The ranges are the invariants R207 keeps, the upper ones of `EMA` and `E` far above every energy. -/
def Obligations.AgcUpdatesControl : Prop :=
  ∀ s : State, F64.within F64.zero F64.pow52 s.ema → F64.within F64.zero F64.pow52 s.e →
    F64.within 0x3FA999999999999A 0x4069000000000000 s.gain →
    ∃ (t : State) (m product root : NumWord), exec .agc s = .next t ∧
      t.ema = F64.add (F64.mul (F64.sub 0x3FF0000000000000 0x3FC999999999999A) s.ema)
        (F64.mul 0x3FC999999999999A s.e) ∧
      m = (if F64.val (F64.mul t.ema s.gain) < F64.val 0x3FF0000000000000 then F64.mul t.ema s.gain
        else 0x3FF0000000000000) ∧
      product = F64.mul s.gain
        (F64.add 0x3FF0000000000000 (F64.mul 0x3F8EB851EB851EB8 (F64.sub 0x3FD6666666666666 m))) ∧
      t.gain = (if F64.val product < F64.val 0x3FA999999999999A then 0x3FA999999999999A
        else if F64.val 0x4069000000000000 < F64.val product then 0x4069000000000000 else product) ∧
      root = F64.sqrt (F64.mul t.ema t.gain) ∧
      t.level = (if F64.val root < 0 then 0 else if F64.val 0x3FF0000000000000 < F64.val root
        then 0x3FF0000000000000 else root) ∧
      t.stage = 8 ∧
      t = { s with ema := t.ema, gain := t.gain, level := t.level, stage := t.stage }

/-- 47_agc_smoother.md R207: after every AGC the gain is inside its clamp and the level in `[0, 1]`, and the
smoothed energy stays not negative. -/
def Obligations.AgcKeepsRanges : Prop :=
  ∀ s t : State, exec .agc s = .next t →
    F64.within 0x3FA999999999999A 0x4069000000000000 t.gain ∧ F64.within F64.zero F64.one t.level ∧
    (0 ≤ F64.val s.ema → 0 ≤ F64.val s.e → 0 ≤ F64.val t.ema)

/-- 47_agc_smoother.md R210: in silence `EMA` and `LEVEL` are 0, the gain does not fall and never exceeds
its ceiling. -/
def Obligations.AgcSilence : Prop :=
  ∀ s : State, F64.isZero s.ema → F64.isZero s.e → F64.within (agcMin num) (agcMax num) s.gain →
    ∃ t : State, exec .agc s = .next t ∧ F64.isZero t.ema ∧ F64.isZero t.level ∧
      F64.val s.gain ≤ F64.val t.gain ∧ F64.val t.gain ≤ F64.val (agcMax num) ∧
      (F64.val s.gain < F64.val (agcMax num) → F64.val s.gain < F64.val t.gain)

/-- 60_exceptions.md R262 (c), 47_agc_smoother.md R212: where a NaN or infinity would reach `min` or one of
the two `clamp`s, AGC refuses: the new `EMA` times `GAIN`, then the gain before its clamp, then the root
before its clamp (log 14). No run from reset gets there (StepNeverStopsUnderInv). -/
def Obligations.AgcRefusesNonFinite : Prop :=
  (∀ s : State, F64.isFinite (F64.mul (smoothed num s.ema s.e) s.gain) = false →
    exec .agc s = .refused .notFinite) ∧
  (∀ (s : State) (m : NumWord), measured num (smoothed num s.ema s.e) s.gain = some m →
    F64.isFinite (gainProduct num s.gain m) = false → exec .agc s = .refused .notFinite) ∧
  ∀ (s : State) (m g : NumWord), measured num (smoothed num s.ema s.e) s.gain = some m →
    adaptedGain num s.gain m = some g →
    F64.isFinite (F64.sqrt (F64.mul (smoothed num s.ema s.e) g)) = false → exec .agc s = .refused .notFinite

/-- 47_agc_smoother.md R201 over the reals: after `k` frames of constant `E` from `EMA` = 0,
`EMA = E·(1 − 0.8^k)`. -/
def Obligations.EmaGeometricReal : Prop :=
  ∀ (e : ℝ) (k : ℕ), (fun x => smoothed realArith x e)^[k] 0 = e * (1 - (4 / 5) ^ k)

/-- 47_agc_smoother.md R209, third row, over the reals: for `0.00175 ≤ E ≤ 7` the point `EMA = E`,
`GAIN = 0.35/E` is at rest, with `LEVEL = √0.35` and duty 89. -/
def Obligations.AgcRestingPointReal : Prop :=
  ∀ e : ℝ, 175 / 100000 ≤ e → e ≤ 7 →
    agcUpdate realArith e (35 / 100 / e) e =
      some { ema := e, gain := 35 / 100 / e, level := Real.sqrt (35 / 100) } ∧
    dutyOfLevel realArith (Real.sqrt (35 / 100)) = some 89

/-! The renderer -/

/-- 48_renderer.md R220, R221, R223: the duty is the half-up rounding of the clamped level's square times
255, with the words of 255 and 0.5; it fits the 8 bits. A level that is not finite is refused
(60_exceptions.md R262 (c)). -/
def Obligations.RenderMapsLevel : Prop :=
  (∀ s : State, F64.isFinite s.level = true →
    ∃ (t : State) (x : NumWord), exec .render s = .next t ∧
      x = (if F64.val s.level < 0 then 0 else if F64.val 0x3FF0000000000000 < F64.val s.level
        then 0x3FF0000000000000 else s.level) ∧
      (t.duty.toNat : Int) = F64.floor
        (F64.add (F64.mul (F64.mul x x) 0x406FE00000000000) 0x3FE0000000000000) ∧
      t.stage = 9 ∧ t = { s with duty := t.duty, stage := t.stage }) ∧
  ∀ s : State, F64.isFinite s.level = false → exec .render s = .refused .notFinite

/-- 48_renderer.md R224, R223: the duty is monotone non-decreasing in the level and in `0 … 255`, in
binary64. -/
def Obligations.RenderMonotone : Prop :=
  ∀ a b : NumWord, F64.isFinite a = true → F64.isFinite b = true → F64.val a ≤ F64.val b →
    ∃ d e : Int, dutyOfLevel num a = some d ∧ dutyOfLevel num b = some e ∧ 0 ≤ d ∧ d ≤ e ∧ e ≤ 255

/-- 48_renderer.md R225 over the reals: the duty is the number of thresholds `√((d − 0.5)/255)`, `d` in
`1 … 255`, that the level reaches. -/
def Obligations.RenderThresholdsReal : Prop :=
  ∀ x : ℝ, 0 ≤ x → x ≤ 1 →
    dutyOfLevel realArith x =
      some (((Finset.Icc 1 255).filter
        (fun d : ℕ => Real.sqrt (((d : ℝ) - 1 / 2) / 255) ≤ x)).card : Int)

/-! The banner and the trace -/

/-- 49_debug_trace.md R230, with the bytes of `LineLight-1 boot`, `Fs=9600` and `N=128` or `N=256`; without
the trace BANNER only advances `STAGE` (40_sequencer.md R107). -/
def Obligations.BannerEmitsBootLines : Prop :=
  ∀ s : State,
    (s.params.traceEn = true → exec .banner s = .next { s with
      serEn := true
      txq := s.txq ++
        ([0x4C, 0x69, 0x6E, 0x65, 0x4C, 0x69, 0x67, 0x68, 0x74, 0x2D, 0x31, 0x20, 0x62, 0x6F, 0x6F, 0x74] ++
          s.params.eol.bytes ++ [0x46, 0x73, 0x3D, 0x39, 0x36, 0x30, 0x30] ++ s.params.eol.bytes ++
          [0x4E, 0x3D] ++ (match s.params.frame with
            | .n128 => [0x31, 0x32, 0x38]
            | .n256 => [0x32, 0x35, 0x36]) ++ s.params.eol.bytes)
      stage := 3 }) ∧
    (s.params.traceEn = false → exec .banner s = .next { s with stage := 3 })

/-- 49_debug_trace.md R232, R233, 40_sequencer.md R107: `MS_NOW` is read once; a line is emitted, and the
time of emission kept, exactly where at least 1000 ms have passed by unsigned difference; otherwise
nothing changes but `STAGE` and the environment's clock. A due line that cannot be printed because a
field is not finite is refused (60_exceptions.md R262 (c)). -/
def Obligations.TraceEmitsWhenDue : Prop :=
  (∀ s : State, s.params.traceEn = true → s.printable →
    ∃ (line : List Byte) (now : BitVec 32), s.statusLine = some line ∧
      now = s.env.ms.now + s.env.ms.feed.value Config.msAdvance ∧
      (1000 ≤ (now - s.lastMs).toNat → exec .trace s = .next { s with
        env := { s.env with ms := { now := now, feed := s.env.ms.feed.rest } }
        lastMs := now
        txq := s.txq ++ line
        stage := 3 }) ∧
      ((now - s.lastMs).toNat < 1000 → exec .trace s = .next { s with
        env := { s.env with ms := { now := now, feed := s.env.ms.feed.rest } }
        stage := 3 })) ∧
  (∀ s : State, s.params.traceEn = false → exec .trace s = .next { s with stage := 3 }) ∧
  ∀ s : State, s.params.traceEn = true →
    F64.isFinite s.level = false ∨ F64.isFinite s.gain = false ∨ F64.isFinite s.ema = false →
    1000 ≤ (s.env.ms.now + s.env.ms.feed.value Config.msAdvance - s.lastMs).toNat →
    exec .trace s = .refused .notFinite

/-- 49_debug_trace.md R234, R228: the line of a state, byte by byte, with the numbers of thousandths
rounded half up; `hz(b)` is `(b × 9600) div N`. -/
def Obligations.StatusLineFields : Prop :=
  ∀ s : State, s.printable → 0 ≤ F64.val s.level → 0 ≤ F64.val s.gain → 0 ≤ F64.val s.ema →
    ∃ kl kg km : Nat,
      (kl : Int) = F64.floor (F64.add (F64.mul s.level 0x408F400000000000) 0x3FE0000000000000) ∧
      (kg : Int) = F64.floor (F64.add (F64.mul s.gain 0x408F400000000000) 0x3FE0000000000000) ∧
      (km : Int) = F64.floor (F64.add (F64.mul s.ema 0x408F400000000000) 0x3FE0000000000000) ∧
      s.statusLine = some (
        [0x62, 0x69, 0x6E, 0x73, 0x20] ++ decimal s.binLo.toNat ++ [0x2D] ++ decimal s.binHi.toNat ++
        [0x20, 0x28] ++ decimal (s.binLo.toNat * 9600 / s.len) ++ [0x2D] ++
        decimal (s.binHi.toNat * 9600 / s.len) ++ [0x20, 0x48, 0x7A, 0x29] ++
        [0x20, 0x6C, 0x65, 0x76, 0x65, 0x6C, 0x20] ++ thousandths kl ++
        [0x20, 0x20, 0x61, 0x67, 0x63, 0x20] ++ thousandths kg ++
        [0x20, 0x20, 0x65, 0x6D, 0x61, 0x20] ++ thousandths km ++ s.params.eol.bytes)

/-- 49_debug_trace.md R241: with every value in its range the line has at most 72 characters, and it is
made of 7-bit characters. -/
def Obligations.StatusLineLength : Prop :=
  ∀ s : State, s.binHi.toNat ≤ s.params.frame.nyq → s.binLo.toNat ≤ s.params.frame.nyq →
    F64.within F64.zero F64.one s.level → F64.within (agcMin num) (agcMax num) s.gain →
    F64.within F64.zero (F64.ofInt 4261478400) s.ema →
    ∃ line : List Byte, s.statusLine = some line ∧ line.length ≤ 72 + s.params.eol.bytes.length ∧
      ∀ c ∈ line, c.toNat < 128

/-- 49_debug_trace.md R227: an integer is written in decimal, most significant digit first, without sign or
leading zeros; zero is `0`. -/
def Obligations.DecimalText : Prop :=
  ∀ n : Nat,
    (∀ c ∈ decimal n, 48 ≤ c.toNat ∧ c.toNat ≤ 57) ∧
    (decimal n).foldl (fun v c => 10 * v + (c.toNat - 48)) 0 = n ∧
    decimal n ≠ [] ∧ (n ≠ 0 → (decimal n).head? ≠ some 0x30) ∧ (n = 0 → decimal n = [0x30])

/-- 49_debug_trace.md R228: the text of `K` thousandths is the whole part in decimal, a point, and exactly
three digits with leading zeros. -/
def Obligations.ThousandthsText : Prop :=
  ∀ k : Nat, ∃ a b c : Byte, thousandths k = decimal (k / 1000) ++ [0x2E, a, b, c] ∧
    48 ≤ a.toNat ∧ a.toNat ≤ 57 ∧ 48 ≤ b.toNat ∧ b.toNat ≤ 57 ∧ 48 ≤ c.toNat ∧ c.toNat ≤ 57 ∧
    k % 1000 = 100 * (a.toNat - 48) + 10 * (b.toNat - 48) + (c.toNat - 48)

/-! The arithmetic -/

/-- 00_scope.md R9, R6 (D3): each sum, difference, product and quotient is rounded once, to the nearest
binary64 number, ties to even. -/
def Obligations.ArithmeticNearestEven : Prop :=
  ∀ a b : NumWord, F64.isFinite a = true → F64.isFinite b = true →
    (F64.isFinite (F64.add a b) = true → F64.nearestTo (F64.toRat a + F64.toRat b) (F64.add a b)) ∧
    (F64.isFinite (F64.sub a b) = true → F64.nearestTo (F64.toRat a - F64.toRat b) (F64.sub a b)) ∧
    (F64.isFinite (F64.mul a b) = true → F64.nearestTo (F64.toRat a * F64.toRat b) (F64.mul a b)) ∧
    (F64.toRat b ≠ 0 → F64.isFinite (F64.div a b) = true →
      F64.nearestTo (F64.toRat a / F64.toRat b) (F64.div a b))

/-- 00_scope.md R9, R16 (c): the square root of a finite number that is not negative is the binary64 number
nearest to the real root. -/
def Obligations.SqrtNearest : Prop :=
  ∀ a : NumWord, F64.isFinite a = true → 0 ≤ F64.val a →
    F64.isFinite (F64.sqrt a) = true ∧ 0 ≤ F64.val (F64.sqrt a) ∧
    ∀ c : NumWord, F64.isFinite c = true →
      |((F64.toRat (F64.sqrt a) : ℚ) : ℝ) - Real.sqrt ((F64.toRat a : ℚ) : ℝ)| ≤
        |((F64.toRat c : ℚ) : ℝ) - Real.sqrt ((F64.toRat a : ℚ) : ℝ)|

/-- 00_scope.md R16 (a) to (g) for binary64. -/
def Obligations.NumProperties : Prop :=
  (∀ a b : NumWord, F64.isFinite (F64.mul a b) = true → F64.isFinite a = true → F64.isFinite b = true →
    0 ≤ F64.val a → 0 ≤ F64.val b → 0 ≤ F64.val (F64.mul a b)) ∧
  (∀ a b : NumWord, F64.isFinite (F64.add a b) = true → F64.isFinite a = true → F64.isFinite b = true →
    0 ≤ F64.val a → 0 ≤ F64.val b → 0 ≤ F64.val (F64.add a b)) ∧
  (∀ a : NumWord, F64.isFinite a = true → 0 ≤ F64.val a →
    F64.isFinite (F64.sqrt a) = true ∧ 0 ≤ F64.val (F64.sqrt a) ∧
    (F64.isZero a → F64.isZero (F64.sqrt a))) ∧
  (∀ a b : NumWord, F64.isZero a → F64.isFinite b = true →
    F64.isZero (F64.mul a b) ∧ (F64.isZero b → F64.isZero (F64.add a b))) ∧
  (∀ a b c : NumWord, F64.isFinite a = true → F64.isFinite b = true → F64.isFinite c = true →
    F64.val a ≤ F64.val b →
    (F64.isFinite (F64.add a c) = true → F64.isFinite (F64.add b c) = true →
      F64.val (F64.add a c) ≤ F64.val (F64.add b c)) ∧
    (0 ≤ F64.val c → F64.isFinite (F64.mul a c) = true → F64.isFinite (F64.mul b c) = true →
      F64.val (F64.mul a c) ≤ F64.val (F64.mul b c))) ∧
  (∀ x lo hi : NumWord, F64.isFinite x = true → F64.isFinite lo = true → F64.isFinite hi = true →
    F64.val lo ≤ F64.val hi → ∃ r, Numeric.clamp num x lo hi = some r ∧ F64.within lo hi r) ∧
  ∀ k : Int, k.natAbs ≤ 2 ^ 24 → F64.isFinite (F64.ofInt k) = true ∧ F64.toRat (F64.ofInt k) = k

/-- 00_scope.md R7: the configuration constants, the decimal ones as the binary64 words nearest to them;
`1 − EMA_ALPHA` is the word nearest to 0.8. -/
def Obligations.ConfigurationConstants : Prop :=
  Config.sampleRateHz = 9600 ∧ Config.samplePeriodUs = 104 ∧ Config.adcBias = 512 ∧
  Config.tracePeriodMs = 1000 ∧ Config.serialFormat = ⟨115200, 8, false, 1⟩ ∧
  F64.nearestTo (20 / 100) (emaAlpha num) ∧ emaAlpha num = 0x3FC999999999999A ∧
  F64.nearestTo (35 / 100) (targetLevel num) ∧ F64.nearestTo (15 / 1000) (agcStep num) ∧
  F64.nearestTo (5 / 100) (agcMin num) ∧ F64.nearestTo 200 (agcMax num) ∧
  F64.nearestTo (8 / 10) (F64.sub F64.one (emaAlpha num))

/-! The whole machine -/

/-- 10_state.md R23, R30, R33, R34, 20_memory.md R60, R68: which operation writes what; everything else is
unchanged by every operation. -/
def Obligations.RegistersHaveOneWriter : Prop :=
  ∀ (i : Instr) (s t : State), exec i s = .next t →
    t.params = s.params ∧ t.twRe = s.twRe ∧ t.twIm = s.twIm ∧ t.timer = s.timer ∧
    t.env.rst = s.env.rst ∧ t.env.ticks = s.env.ticks ∧
    (i ≠ .sample → t.t0 = s.t0 ∧ t.i = s.i ∧ t.raw = s.raw ∧ t.env.us = s.env.us) ∧
    (i ≠ .bandsel → t.p1 = s.p1 ∧ t.p2 = s.p2 ∧ t.binLo = s.binLo ∧ t.binHi = s.binHi) ∧
    (i ≠ .render → t.duty = s.duty) ∧
    (i ≠ .trace → t.lastMs = s.lastMs ∧ t.env.ms = s.env.ms) ∧
    (i ≠ .agc → t.ema = s.ema ∧ t.gain = s.gain ∧ t.level = s.level) ∧
    (i ≠ .energy → t.e = s.e) ∧
    (i ≠ .sample → i ≠ .fft → t.vReal = s.vReal ∧ t.vImag = s.vImag) ∧
    (i ≠ .wininit → t.hann = s.hann) ∧
    (i ≠ .pwminit → t.tcfg = s.tcfg) ∧
    (i ≠ .pwminit → i ≠ .pwmwr → t.ocr = s.ocr) ∧
    (i ≠ .pwmwr → t.seen.duties = s.seen.duties) ∧
    (i ≠ .sample → i ≠ .bandsel →
      t.adcch = s.adcch ∧ t.inFlight = s.inFlight ∧ t.env.adc = s.env.adc ∧
      t.seen.conversions = s.seen.conversions) ∧
    (i ≠ .banner → t.serEn = s.serEn) ∧
    (i ≠ .banner → i ≠ .trace → t.txq = s.txq)

/-- The invariant of Safety.lean holds at reset, in every build and environment. The registers to which
the spec gives no reset value hold the model's (log 5, 6). -/
def Obligations.InvAtReset : Prop :=
  ∀ (p : Config.Params) (v : Env), (State.resetWith p v).Inv

/-- The invariant is kept by every step, from every state that has it: legal stage and band, arrays of
their sizes, the ROM constant, the window in `[0, 1]`, `EMA`, `GAIN` and `LEVEL` in their ranges, the frame
bounded and finite, `TCFG`, `OCR`, `ADCCH` and the timer legal, no conversion left in flight, the text
7-bit. -/
def Obligations.InvKeptByStep : Prop :=
  ∀ s t : State, s.Inv → step s = .next t → t.Inv

/-- 60_exceptions.md R260, R262: every operation is total on every state a run can reach: from every state
with the invariant the step has a next state, and no refusal is reachable. -/
def Obligations.StepNeverStopsUnderInv : Prop :=
  ∀ s : State, s.Inv → ∃ t : State, step s = .next t

/-- 47_agc_smoother.md R210, 46_energy_integrator.md R194, 60_exceptions.md R263: with a silent input
(every audio conversion 512) from reset, after every frame the energy and the smoothed energy are 0 and
every duty written is 0, whatever the pots, the clocks and the timer do. -/
def Obligations.SilentRunStaysDark : Prop :=
  ∀ (p : Config.Params) (v : Env) (k : Nat), (∀ b ∈ v.rst, b = false) →
    (∀ j, j < k * (p.frame.len + 2) → j % (p.frame.len + 2) < p.frame.len →
      v.adc.answer Config.adcAnswer j = 512) →
    ∃ t : State, Host.Core.run core (3 + 8 * k) (State.resetWith p v) = .next t ∧
      F64.isZero t.ema ∧ (0 < k → F64.isZero t.e) ∧ t.seen.duties = List.replicate k 0

/-- 70_reset_and_hazards.md R305: the duty sequence is determined by the ADC results: two runs that start
in agreement on what it depends on stay so, whatever the clocks, `TRACE_EN` and the timer do; from reset
both run on, and their duty sequences are equal. -/
def Obligations.DutySequenceDeterminism : Prop :=
  (∀ (k : Nat) (s t s' t' : State), s.DutyAgree t →
    Host.Core.run core k s = .next s' → Host.Core.run core k t = .next t' → s'.DutyAgree t') ∧
  ∀ (k : Nat) (p q : Config.Params) (v w : Env), p.frame = q.frame → v.adc = w.adc → v.rst = w.rst →
    ∃ s' t' : State, Host.Core.run core k (State.resetWith p v) = .next s' ∧
      Host.Core.run core k (State.resetWith q w) = .next t' ∧ s'.seen.duties = t'.seen.duties
end

