-- ==== Sys2Proof/Laws/Binary64.lean ====
section
/-! SUPPORT. The rounding of binary64: what the fields of a word mean, that rounding is exact on
representable values and monotone, and what each operation answers on finite operands. -/

namespace Sys2Proof.Machine

/-! Fields and magnitudes -/

/-- The magnitude that exponent and fraction fields stand for, in units of 2^−1074. -/
def F64.fieldsMag (m : Nat) : Nat :=
  if m / 2 ^ 52 = 0 then m % 2 ^ 52 else (2 ^ 52 + m % 2 ^ 52) * 2 ^ (m / 2 ^ 52 - 1)

theorem F64.fieldsMag_small {m : Nat} (h : m ≤ 2 ^ 53) : F64.fieldsMag m = m := by
  unfold F64.fieldsMag
  split
  · omega
  · rename_i h0
    by_cases h2 : m = 2 ^ 53
    · subst h2; decide
    · have : m / 2 ^ 52 = 1 := by omega
      rw [this]; simp; omega

/-- A significand of a full 53 bits with `k` added to the exponent field is scaled by `2^k`. -/
theorem F64.fieldsMag_normal {k m : Nat} (hlo : 2 ^ 52 ≤ m) (hhi : m ≤ 2 ^ 53) :
    F64.fieldsMag (k * 2 ^ 52 + m) = m * 2 ^ k := by
  unfold F64.fieldsMag
  by_cases h2 : m = 2 ^ 53
  · have h1 : (k * 2 ^ 52 + m) / 2 ^ 52 = k + 2 := by omega
    have h3 : (k * 2 ^ 52 + m) % 2 ^ 52 = 0 := by omega
    rw [h1, h3, if_neg (by omega), show k + 2 - 1 = k + 1 by omega, pow_succ]
    subst h2; ring
  · have h1 : (k * 2 ^ 52 + m) / 2 ^ 52 = k + 1 := by omega
    have h3 : (k * 2 ^ 52 + m) % 2 ^ 52 = m - 2 ^ 52 := by omega
    rw [h1, h3, if_neg (by omega), show k + 1 - 1 = k by omega, show 2 ^ 52 + (m - 2 ^ 52) = m by omega]

theorem F64.fieldsMag_succ (m : Nat) : F64.fieldsMag m < F64.fieldsMag (m + 1) := by
  by_cases h : m < 2 ^ 53
  · rw [F64.fieldsMag_small (by omega), F64.fieldsMag_small (by omega)]; omega
  · obtain ⟨k, r, hm, hlo, hhi⟩ : ∃ k r, m = k * 2 ^ 52 + r ∧ 2 ^ 52 ≤ r ∧ r < 2 ^ 53 :=
      ⟨m / 2 ^ 52 - 1, 2 ^ 52 + m % 2 ^ 52, by omega, by omega, by omega⟩
    rw [hm, show k * 2 ^ 52 + r + 1 = k * 2 ^ 52 + (r + 1) by omega,
      F64.fieldsMag_normal hlo (by omega), F64.fieldsMag_normal (by omega) (by omega)]
    exact Nat.mul_lt_mul_of_pos_right (by omega) (by positivity)

/-- Fields compare as the magnitudes they stand for. -/
theorem F64.fieldsMag_strictMono : StrictMono F64.fieldsMag := strictMono_nat_of_lt_succ F64.fieldsMag_succ

theorem F64.fieldsMag_le {a b : Nat} : F64.fieldsMag a ≤ F64.fieldsMag b ↔ a ≤ b :=
  F64.fieldsMag_strictMono.le_iff_le

/-! Rounding a quotient to an integer -/

theorem F64.nearestEven_le (n d : Nat) : F64.nearestEven n d ≤ n / d + 1 := by
  unfold F64.nearestEven
  split
  · omega
  · split <;> omega

theorem F64.le_nearestEven (n d : Nat) : n / d ≤ F64.nearestEven n d := by
  unfold F64.nearestEven
  split
  · omega
  · split <;> omega

/-- The rounded integer is within half a unit of the quotient. -/
theorem F64.nearestEven_near (n d : Nat) (hd : 0 < d) :
    2 * n ≤ (2 * F64.nearestEven n d + 1) * d ∧ 2 * F64.nearestEven n d * d ≤ 2 * n + d := by
  have hn : d * (n / d) + n % d = n := Nat.div_add_mod n d
  have hr : n % d < d := Nat.mod_lt n hd
  unfold F64.nearestEven
  generalize n / d = q at *
  generalize n % d = r at *
  have e : (2 * q + 1) * d = 2 * (d * q) + d := by ring
  have e2 : (2 * (q + 1) + 1) * d = 2 * (d * q) + 3 * d := by ring
  have e3 : 2 * q * d = 2 * (d * q) := by ring
  have e4 : 2 * (q + 1) * d = 2 * (d * q) + 2 * d := by ring
  split
  · rw [e, e3]; omega
  · split
    · rw [e2, e4]; omega
    · rcases Nat.mod_two_eq_zero_or_one q with h | h <;> rw [h]
      · simp only [Nat.add_zero]; rw [e, e3]; omega
      · rw [e2, e4]; omega

/-- At a tie the rounded integer is even. -/
theorem F64.nearestEven_tie (n d : Nat) (h : 2 * (n % d) = d) : F64.nearestEven n d % 2 = 0 := by
  unfold F64.nearestEven
  rw [if_neg (by omega), if_neg (by omega)]; omega

theorem F64.nearestEven_exact (q d : Nat) (hd : 0 < d) : F64.nearestEven (q * d) d = q := by
  unfold F64.nearestEven
  rw [Nat.mul_mod_left, if_pos (by omega), Nat.mul_div_cancel _ hd]

/-- Rounding to an integer is monotone in the quotient. -/
theorem F64.nearestEven_mono {n₁ d₁ n₂ d₂ : Nat} (h₁ : 0 < d₁) (h₂ : 0 < d₂) (h : n₁ * d₂ ≤ n₂ * d₁) :
    F64.nearestEven n₁ d₁ ≤ F64.nearestEven n₂ d₂ := by
  by_contra hc
  have hc' : F64.nearestEven n₂ d₂ + 1 ≤ F64.nearestEven n₁ d₁ := by omega
  obtain ⟨_, hb⟩ := F64.nearestEven_near n₁ d₁ h₁
  obtain ⟨ha, _⟩ := F64.nearestEven_near n₂ d₂ h₂
  -- both quotients are the midpoint between the two rounded integers
  set a := F64.nearestEven n₁ d₁ with hA
  set b := F64.nearestEven n₂ d₂ with hB
  have s1 : 2 * n₂ * d₁ ≤ (2 * b + 1) * d₂ * d₁ := Nat.mul_le_mul_right _ ha
  have s2 : 2 * a * d₁ * d₂ ≤ (2 * n₁ + d₁) * d₂ := Nat.mul_le_mul_right _ hb
  have s3 : (2 * b + 2) * (d₁ * d₂) ≤ 2 * a * (d₁ * d₂) := Nat.mul_le_mul_right _ (by omega)
  have hpos : 0 < d₁ * d₂ := Nat.mul_pos h₁ h₂
  have k1 : 2 * (n₂ * d₁) ≤ (2 * b + 1) * (d₁ * d₂) := by
    calc 2 * (n₂ * d₁) = 2 * n₂ * d₁ := by ring
      _ ≤ _ := s1
      _ = _ := by ring
  have k2 : 2 * a * (d₁ * d₂) ≤ 2 * (n₁ * d₂) + d₁ * d₂ := by
    calc 2 * a * (d₁ * d₂) = 2 * a * d₁ * d₂ := by ring
      _ ≤ _ := s2
      _ = _ := by ring
  have e1 : (2 * b + 2) * (d₁ * d₂) = (2 * b + 1) * (d₁ * d₂) + d₁ * d₂ := by ring
  have e2 : (2 * b + 1) * (d₁ * d₂) = 2 * (n₂ * d₁) := by omega
  have e3 : 2 * (n₁ * d₂) = 2 * (n₂ * d₁) := by omega
  have e4 : 2 * a * (d₁ * d₂) = (2 * b + 2) * (d₁ * d₂) := by omega
  have hab : a = b + 1 := by
    have := Nat.eq_of_mul_eq_mul_right hpos e4
    omega
  have tie : ∀ n d c : Nat, 0 < d → 2 * n = (2 * c + 1) * d → 2 * (n % d) = d := by
    intro n d c hd he
    have e : (2 * c + 1) * d = 2 * (d * c) + d := by ring
    have hn : d * (n / d) + n % d = n := Nat.div_add_mod n d
    have hr : n % d < d := Nat.mod_lt n hd
    have hq : n / d = c := by
      apply Nat.div_eq_of_lt_le
      · have : c * d = d * c := by ring
        omega
      · have : (c + 1) * d = d * c + d := by ring
        omega
    rw [hq] at hn; omega
  have t2 : 2 * (n₂ % d₂) = d₂ := by
    apply tie n₂ d₂ b h₂
    have : d₁ * (2 * n₂) = d₁ * ((2 * b + 1) * d₂) := by
      calc d₁ * (2 * n₂) = 2 * (n₂ * d₁) := by ring
        _ = (2 * b + 1) * (d₁ * d₂) := e2.symm
        _ = _ := by ring
    exact Nat.eq_of_mul_eq_mul_left h₁ this
  have t1 : 2 * (n₁ % d₁) = d₁ := by
    apply tie n₁ d₁ b h₁
    have : d₂ * (2 * n₁) = d₂ * ((2 * b + 1) * d₁) := by
      calc d₂ * (2 * n₁) = 2 * (n₁ * d₂) := by ring
        _ = (2 * b + 1) * (d₁ * d₂) := by rw [e3, e2]
        _ = _ := by ring
    exact Nat.eq_of_mul_eq_mul_left h₂ this
  have p1 := F64.nearestEven_tie n₁ d₁ t1
  have p2 := F64.nearestEven_tie n₂ d₂ t2
  omega

/-! Rounding a quotient to the format -/

/-- The quotient lies in its binade: below `2^53` spacings, and from `2^52` on unless it is the lowest. -/
theorem F64.binade_spec (n d : Nat) :
    n / d < 2 ^ 53 * 2 ^ F64.binade n d ∧
      (F64.binade n d ≠ 0 → 2 ^ 52 * 2 ^ F64.binade n d ≤ n / d) := by
  unfold F64.binade
  generalize n / d = q
  constructor
  · rw [← pow_add]
    exact lt_of_lt_of_le Nat.lt_log2_self (Nat.pow_le_pow_right (by omega) (by omega))
  · intro h
    rw [← pow_add]
    have hq : q ≠ 0 := by rintro rfl; simp at h
    calc 2 ^ (52 + (Nat.log2 q - 52)) = 2 ^ Nat.log2 q := by congr 1; omega
      _ ≤ q := Nat.log2_self_le hq

/-- The significand of a rounded value. -/
theorem F64.significand_range (n d : Nat) :
    F64.nearestEven n (d * 2 ^ F64.binade n d) ≤ 2 ^ 53 ∧
      (F64.binade n d ≠ 0 → 2 ^ 52 ≤ F64.nearestEven n (d * 2 ^ F64.binade n d)) := by
  obtain ⟨hlt, hge⟩ := F64.binade_spec n d
  have hp : 0 < 2 ^ F64.binade n d := by positivity
  have hq : n / (d * 2 ^ F64.binade n d) = n / d / 2 ^ F64.binade n d := by rw [Nat.div_div_eq_div_mul]
  constructor
  · have := F64.nearestEven_le n (d * 2 ^ F64.binade n d)
    have h2 : n / d / 2 ^ F64.binade n d < 2 ^ 53 := Nat.div_lt_of_lt_mul (by rw [mul_comm]; exact hlt)
    omega
  · intro h
    refine le_trans ?_ (F64.le_nearestEven _ _)
    rw [hq]
    exact (Nat.le_div_iff_mul_le hp).2 (hge h)

/-- Rounding without the overflow to infinity. -/
def F64.roundFields (n d : Nat) : Nat :=
  F64.binade n d * 2 ^ 52 + F64.nearestEven n (d * 2 ^ F64.binade n d)

theorem F64.roundMag_eq (n d : Nat) : F64.roundMag n d = min (F64.roundFields n d) (2047 * 2 ^ 52) := rfl

/-- What the rounded fields stand for: the significand times the spacing. -/
theorem F64.fieldsMag_roundFields (n d : Nat) :
    F64.fieldsMag (F64.roundFields n d) =
      F64.nearestEven n (d * 2 ^ F64.binade n d) * 2 ^ F64.binade n d := by
  obtain ⟨hhi, hlo⟩ := F64.significand_range n d
  unfold F64.roundFields
  by_cases h : F64.binade n d = 0
  · rw [h] at hhi ⊢
    rw [Nat.zero_mul, Nat.zero_add, F64.fieldsMag_small hhi, pow_zero, Nat.mul_one, Nat.mul_one]
  · exact F64.fieldsMag_normal (hlo h) hhi

/-- Rounding is monotone (00_scope.md R16 (e)). -/
theorem F64.roundFields_mono {n₁ d₁ n₂ d₂ : Nat} (h₁ : 0 < d₁) (h₂ : 0 < d₂) (h : n₁ * d₂ ≤ n₂ * d₁) :
    F64.roundFields n₁ d₁ ≤ F64.roundFields n₂ d₂ := by
  have hq : n₁ / d₁ ≤ n₂ / d₂ := by
    rw [Nat.le_div_iff_mul_le h₂]
    have a : n₁ / d₁ * d₁ ≤ n₁ := Nat.div_mul_le_self _ _
    have : n₁ / d₁ * d₂ * d₁ ≤ n₂ * d₁ := by
      calc n₁ / d₁ * d₂ * d₁ = n₁ / d₁ * d₁ * d₂ := by ring
        _ ≤ n₁ * d₂ := Nat.mul_le_mul_right _ a
        _ ≤ _ := h
    exact Nat.le_of_mul_le_mul_right this h₁
  have hk : F64.binade n₁ d₁ ≤ F64.binade n₂ d₂ := by
    unfold F64.binade
    apply Nat.sub_le_sub_right
    by_cases z : n₁ / d₁ = 0
    · rw [z]; simp
    · have z₂ : n₂ / d₂ ≠ 0 := fun e => z (Nat.le_zero.1 (e ▸ hq))
      exact (Nat.le_log2 z₂).2 (le_trans (Nat.log2_self_le z) hq)
  unfold F64.roundFields
  rcases Nat.eq_or_lt_of_le hk with e | l
  · rw [e]
    apply Nat.add_le_add_left
    apply F64.nearestEven_mono
    · positivity
    · positivity
    · calc n₁ * (d₂ * 2 ^ F64.binade n₂ d₂) = n₁ * d₂ * 2 ^ F64.binade n₂ d₂ := by ring
        _ ≤ n₂ * d₁ * 2 ^ F64.binade n₂ d₂ := Nat.mul_le_mul_right _ h
        _ = _ := by ring
  · have a := (F64.significand_range n₁ d₁).1
    have b := (F64.significand_range n₂ d₂).2 (by omega)
    generalize F64.nearestEven n₁ (d₁ * 2 ^ F64.binade n₁ d₁) = x at *
    generalize F64.nearestEven n₂ (d₂ * 2 ^ F64.binade n₂ d₂) = y at *
    generalize F64.binade n₁ d₁ = k at *
    generalize F64.binade n₂ d₂ = l' at *
    have : (k + 1) * 2 ^ 52 ≤ l' * 2 ^ 52 := Nat.mul_le_mul_right _ (by omega)
    omega

/-- A value of the format is its own rounding. -/
theorem F64.roundFields_exact (w d : Nat) (hd : 0 < d) :
    F64.roundFields (F64.fieldsMag w * d) d = w := by
  have hq : F64.fieldsMag w * d / d = F64.fieldsMag w := Nat.mul_div_cancel _ hd
  by_cases h : w < 2 ^ 53
  · have hm : F64.fieldsMag w = w := F64.fieldsMag_small (by omega)
    have hb : F64.binade (F64.fieldsMag w * d) d = 0 := by
      unfold F64.binade
      rw [hq, hm]
      have : Nat.log2 w < 53 := by
        by_cases z : w = 0
        · subst z; simp
        · exact (Nat.log2_lt z).2 h
      omega
    unfold F64.roundFields
    rw [hb, pow_zero, Nat.mul_one, F64.nearestEven_exact _ _ hd, hm]; omega
  · obtain ⟨k, r, hw, hlo, hhi⟩ : ∃ k r, w = k * 2 ^ 52 + r ∧ 2 ^ 52 ≤ r ∧ r < 2 ^ 53 :=
      ⟨w / 2 ^ 52 - 1, 2 ^ 52 + w % 2 ^ 52, by omega, by omega, by omega⟩
    have hm : F64.fieldsMag w = r * 2 ^ k := by rw [hw]; exact F64.fieldsMag_normal hlo (by omega)
    have hr0 : r * 2 ^ k ≠ 0 := by positivity
    have hb : F64.binade (F64.fieldsMag w * d) d = k := by
      unfold F64.binade
      rw [hq, hm]
      have h1 : 52 + k ≤ Nat.log2 (r * 2 ^ k) :=
        (Nat.le_log2 hr0).2 (by rw [pow_add]; exact Nat.mul_le_mul_right _ hlo)
      have h2 : Nat.log2 (r * 2 ^ k) < 53 + k :=
        (Nat.log2_lt hr0).2 (by rw [pow_add]; exact Nat.mul_lt_mul_of_pos_right hhi (by positivity))
      omega
    unfold F64.roundFields
    rw [hb, hm, show r * 2 ^ k * d = r * (d * 2 ^ k) by ring,
      F64.nearestEven_exact _ _ (by positivity), hw]

theorem F64.roundMag_mono {n₁ d₁ n₂ d₂ : Nat} (h₁ : 0 < d₁) (h₂ : 0 < d₂) (h : n₁ * d₂ ≤ n₂ * d₁) :
    F64.roundMag n₁ d₁ ≤ F64.roundMag n₂ d₂ := by
  rw [F64.roundMag_eq, F64.roundMag_eq]
  exact min_le_min_right _ (F64.roundFields_mono h₁ h₂ h)

theorem F64.roundMag_exact (w d : Nat) (hd : 0 < d) (hw : w ≤ 2047 * 2 ^ 52) :
    F64.roundMag (F64.fieldsMag w * d) d = w := by
  rw [F64.roundMag_eq, F64.roundFields_exact _ _ hd]; omega

/-- A quotient up to a value of the format rounds to at most that value. -/
theorem F64.roundMag_le {n d w : Nat} (hd : 0 < d) (hw : w ≤ 2047 * 2 ^ 52)
    (h : n ≤ F64.fieldsMag w * d) : F64.roundMag n d ≤ w := by
  conv_rhs => rw [← F64.roundMag_exact w d hd hw]
  exact F64.roundMag_mono hd hd (Nat.mul_le_mul_right _ h)

/-- A quotient from a value of the format on rounds to at least that value. -/
theorem F64.le_roundMag {n d w : Nat} (hd : 0 < d) (hw : w ≤ 2047 * 2 ^ 52)
    (h : F64.fieldsMag w * d ≤ n) : w ≤ F64.roundMag n d := by
  conv_lhs => rw [← F64.roundMag_exact w d hd hw]
  exact F64.roundMag_mono hd hd (Nat.mul_le_mul_right _ h)

theorem F64.roundMag_top (n d : Nat) : F64.roundMag n d ≤ 2047 * 2 ^ 52 := min_le_right _ _

/-! Words -/

theorem F64.isNeg_iff (x : NumWord) : F64.isNeg x = decide (2 ^ 63 ≤ x.toNat) := by
  unfold F64.isNeg
  rw [BitVec.msb_eq_decide]

/-- A word's magnitude is that of its lower 63 bits. -/
theorem F64.mag_eq (x : NumWord) : F64.mag x = F64.fieldsMag (x.toNat % 2 ^ 63) := by
  have := x.isLt
  unfold F64.mag F64.fieldsMag F64.expField F64.fracField
  have h1 : x.toNat % 2 ^ 63 / 2 ^ 52 = x.toNat / 2 ^ 52 % 2 ^ 11 := by omega
  have h2 : x.toNat % 2 ^ 63 % 2 ^ 52 = x.toNat % 2 ^ 52 := by omega
  rw [h1, h2]

theorem F64.isFinite_iff (x : NumWord) : F64.isFinite x = true ↔ x.toNat % 2 ^ 63 < 2047 * 2 ^ 52 := by
  have := x.isLt
  unfold F64.isFinite F64.expField
  simp only [decide_eq_true_eq]
  omega

theorem F64.not_nan_of_finite {x : NumWord} (h : F64.isFinite x = true) : F64.isNaN x = false := by
  unfold F64.isFinite at h; unfold F64.isNaN; simp_all

theorem F64.not_inf_of_finite {x : NumWord} (h : F64.isFinite x = true) : F64.isInf x = false := by
  unfold F64.isFinite at h; unfold F64.isInf; simp_all

theorem F64.toNat_pack (neg : Bool) (m : Nat) (hm : m < 2 ^ 63) :
    (F64.pack neg m).toNat = if neg then 2 ^ 63 + m else m := by
  unfold F64.pack
  rw [BitVec.toNat_ofNat]
  cases neg
  · simp; omega
  · simp; omega

@[simp] theorem F64.fields_pack (neg : Bool) (m : Nat) (hm : m < 2 ^ 63) :
    (F64.pack neg m).toNat % 2 ^ 63 = m := by
  rw [F64.toNat_pack neg m hm]
  cases neg <;> simp <;> omega

@[simp] theorem F64.isNeg_pack (neg : Bool) (m : Nat) (hm : m < 2 ^ 63) : F64.isNeg (F64.pack neg m) = neg := by
  rw [F64.isNeg_iff, F64.toNat_pack neg m hm]
  cases neg
  · simp; omega
  · simp

theorem F64.mag_pack (neg : Bool) (m : Nat) (hm : m < 2 ^ 63) :
    F64.mag (F64.pack neg m) = F64.fieldsMag m := by
  rw [F64.mag_eq, F64.fields_pack neg m hm]

theorem F64.isFinite_pack (neg : Bool) (m : Nat) (hm : m < 2 ^ 63) :
    F64.isFinite (F64.pack neg m) = true ↔ m < 2047 * 2 ^ 52 := by
  rw [F64.isFinite_iff, F64.fields_pack neg m hm]

theorem F64.scale_pos : 0 < F64.scale := by unfold F64.scale; positivity

/-- The rounding of a quotient: its sign, its magnitude, and when it is finite. -/
theorem F64.round_spec (neg : Bool) (n d : Nat) :
    F64.isNeg (F64.round neg n d) = neg ∧
      F64.mag (F64.round neg n d) = F64.fieldsMag (F64.roundMag n d) ∧
      (F64.isFinite (F64.round neg n d) = true ↔ F64.roundMag n d < 2047 * 2 ^ 52) := by
  have h : F64.roundMag n d < 2 ^ 63 := lt_of_le_of_lt (F64.roundMag_top n d) (by norm_num)
  exact ⟨F64.isNeg_pack _ _ h, F64.mag_pack _ _ h, F64.isFinite_pack _ _ h⟩

/-- A quotient of magnitude up to a finite word's rounds to a finite word of at most its magnitude. -/
theorem F64.round_le {n d : Nat} {w : NumWord} (neg : Bool) (hd : 0 < d) (hw : F64.isFinite w = true)
    (h : n ≤ F64.mag w * d) :
    F64.isFinite (F64.round neg n d) = true ∧ F64.mag (F64.round neg n d) ≤ F64.mag w := by
  rw [F64.isFinite_iff] at hw
  rw [F64.mag_eq] at h
  obtain ⟨_, hm, hf⟩ := F64.round_spec neg n d
  have hr := F64.roundMag_le hd (le_of_lt hw) h
  exact ⟨hf.2 (lt_of_le_of_lt hr hw), by rw [hm, F64.mag_eq w, F64.fieldsMag_le]; exact hr⟩

/-- A quotient of magnitude from a finite word's on rounds to at least its magnitude. -/
theorem F64.le_round {n d : Nat} {w : NumWord} (neg : Bool) (hd : 0 < d) (hw : F64.isFinite w = true)
    (h : F64.mag w * d ≤ n) : F64.mag w ≤ F64.mag (F64.round neg n d) := by
  rw [F64.isFinite_iff] at hw
  rw [F64.mag_eq] at h
  rw [(F64.round_spec neg n d).2.1, F64.mag_eq w, F64.fieldsMag_le]
  exact F64.le_roundMag hd (le_of_lt hw) h

/-! Operations on finite operands -/

theorem F64.val_nonneg_of_not_neg {x : NumWord} (h : F64.isNeg x = false) : 0 ≤ F64.val x := by
  simp [F64.val, h]

@[simp] theorem F64.natAbs_val (x : NumWord) : (F64.val x).natAbs = F64.mag x := by
  unfold F64.val; split <;> simp

theorem F64.add_finite {a b : NumWord} (ha : F64.isFinite a = true) (hb : F64.isFinite b = true) :
    F64.add a b =
      if F64.val a + F64.val b = 0 then
        (if F64.isNeg a && F64.isNeg b then F64.negZero else F64.zero)
      else F64.round (decide (F64.val a + F64.val b < 0)) (F64.val a + F64.val b).natAbs 1 := by
  simp [F64.add, F64.not_nan_of_finite ha, F64.not_nan_of_finite hb, F64.not_inf_of_finite ha,
    F64.not_inf_of_finite hb]

theorem F64.mul_finite {a b : NumWord} (ha : F64.isFinite a = true) (hb : F64.isFinite b = true) :
    F64.mul a b = F64.round (F64.isNeg a != F64.isNeg b) (F64.mag a * F64.mag b) F64.scale := by
  simp [F64.mul, F64.not_nan_of_finite ha, F64.not_nan_of_finite hb, F64.not_inf_of_finite ha,
    F64.not_inf_of_finite hb]

theorem F64.div_finite {a b : NumWord} (ha : F64.isFinite a = true) (hb : F64.isFinite b = true)
    (h0 : F64.mag b ≠ 0) :
    F64.div a b = F64.round (F64.isNeg a != F64.isNeg b) (F64.mag a * F64.scale) (F64.mag b) := by
  simp [F64.div, F64.not_nan_of_finite ha, F64.not_nan_of_finite hb, F64.not_inf_of_finite ha,
    F64.not_inf_of_finite hb, h0]

/-- The bits of `⌊√n⌋` below `2^k`, given those above. -/
theorem F64.isqrtBits_spec (n : Nat) : ∀ k r, r * r ≤ n → n < (r + 2 ^ k) * (r + 2 ^ k) →
    F64.isqrtBits n k r * F64.isqrtBits n k r ≤ n ∧
      n < (F64.isqrtBits n k r + 1) * (F64.isqrtBits n k r + 1)
  | 0, r, h1, h2 => by simpa [F64.isqrtBits] using ⟨h1, h2⟩
  | k + 1, r, h1, h2 => by
    unfold F64.isqrtBits
    split
    · rename_i h
      apply F64.isqrtBits_spec n k _ h
      rwa [Nat.add_assoc, ← Nat.two_mul, ← pow_succ']
    · rename_i h
      exact F64.isqrtBits_spec n k r h1 (by omega)

/-- The integer square root is the floor of the root. -/
theorem F64.isqrt_spec (n : Nat) (h : n < 2 ^ 168) :
    F64.isqrt n * F64.isqrt n ≤ n ∧ n < (F64.isqrt n + 1) * (F64.isqrt n + 1) :=
  F64.isqrtBits_spec n 84 0 (by simp) (by
    calc n < 2 ^ 168 := h
      _ = (0 + 2 ^ 84) * (0 + 2 ^ 84) := by norm_num)

theorem F64.isqrt_eq_sqrt (n : Nat) (h : n < 2 ^ 168) : F64.isqrt n = Nat.sqrt n :=
  Nat.eq_sqrt.2 (F64.isqrt_spec n h)

end Sys2Proof.Machine
end

