-- ==== Sys2Proof/Laws/State.lean ====
section
/-! SUPPORT. One lemma per field per update of the state, true by rfl, so that no proof unfolds a record
update. -/

namespace Sys2Proof.Machine

/-! advance -/

@[simp] theorem State.advance_params (i : Instr) (s : State) : (s.advance i).params = s.params := rfl
@[simp] theorem State.advance_stage (i : Instr) (s : State) : (s.advance i).stage = nextStage i := rfl
@[simp] theorem State.advance_i (i : Instr) (s : State) : (s.advance i).i = s.i := rfl
@[simp] theorem State.advance_t0 (i : Instr) (s : State) : (s.advance i).t0 = s.t0 := rfl
@[simp] theorem State.advance_raw (i : Instr) (s : State) : (s.advance i).raw = s.raw := rfl
@[simp] theorem State.advance_p1 (i : Instr) (s : State) : (s.advance i).p1 = s.p1 := rfl
@[simp] theorem State.advance_p2 (i : Instr) (s : State) : (s.advance i).p2 = s.p2 := rfl
@[simp] theorem State.advance_binLo (i : Instr) (s : State) : (s.advance i).binLo = s.binLo := rfl
@[simp] theorem State.advance_binHi (i : Instr) (s : State) : (s.advance i).binHi = s.binHi := rfl
@[simp] theorem State.advance_duty (i : Instr) (s : State) : (s.advance i).duty = s.duty := rfl
@[simp] theorem State.advance_lastMs (i : Instr) (s : State) : (s.advance i).lastMs = s.lastMs := rfl
@[simp] theorem State.advance_ema (i : Instr) (s : State) : (s.advance i).ema = s.ema := rfl
@[simp] theorem State.advance_gain (i : Instr) (s : State) : (s.advance i).gain = s.gain := rfl
@[simp] theorem State.advance_e (i : Instr) (s : State) : (s.advance i).e = s.e := rfl
@[simp] theorem State.advance_level (i : Instr) (s : State) : (s.advance i).level = s.level := rfl
@[simp] theorem State.advance_vReal (i : Instr) (s : State) : (s.advance i).vReal = s.vReal := rfl
@[simp] theorem State.advance_vImag (i : Instr) (s : State) : (s.advance i).vImag = s.vImag := rfl
@[simp] theorem State.advance_hann (i : Instr) (s : State) : (s.advance i).hann = s.hann := rfl
@[simp] theorem State.advance_twRe (i : Instr) (s : State) : (s.advance i).twRe = s.twRe := rfl
@[simp] theorem State.advance_twIm (i : Instr) (s : State) : (s.advance i).twIm = s.twIm := rfl
@[simp] theorem State.advance_tcfg (i : Instr) (s : State) : (s.advance i).tcfg = s.tcfg := rfl
@[simp] theorem State.advance_ocr (i : Instr) (s : State) : (s.advance i).ocr = s.ocr := rfl
@[simp] theorem State.advance_timer (i : Instr) (s : State) : (s.advance i).timer = s.timer := rfl
@[simp] theorem State.advance_adcch (i : Instr) (s : State) : (s.advance i).adcch = s.adcch := rfl
@[simp] theorem State.advance_inFlight (i : Instr) (s : State) : (s.advance i).inFlight = s.inFlight := rfl
@[simp] theorem State.advance_serEn (i : Instr) (s : State) : (s.advance i).serEn = s.serEn := rfl
@[simp] theorem State.advance_txq (i : Instr) (s : State) : (s.advance i).txq = s.txq := rfl
@[simp] theorem State.advance_seen (i : Instr) (s : State) : (s.advance i).seen = s.seen := rfl
@[simp] theorem State.advance_env (i : Instr) (s : State) : (s.advance i).env = s.env := rfl

/-! storeOcr -/

@[simp] theorem State.storeOcr_params (v : BitVec 16) (s : State) : (s.storeOcr v).params = s.params := rfl
@[simp] theorem State.storeOcr_stage (v : BitVec 16) (s : State) : (s.storeOcr v).stage = s.stage := rfl
@[simp] theorem State.storeOcr_i (v : BitVec 16) (s : State) : (s.storeOcr v).i = s.i := rfl
@[simp] theorem State.storeOcr_t0 (v : BitVec 16) (s : State) : (s.storeOcr v).t0 = s.t0 := rfl
@[simp] theorem State.storeOcr_raw (v : BitVec 16) (s : State) : (s.storeOcr v).raw = s.raw := rfl
@[simp] theorem State.storeOcr_p1 (v : BitVec 16) (s : State) : (s.storeOcr v).p1 = s.p1 := rfl
@[simp] theorem State.storeOcr_p2 (v : BitVec 16) (s : State) : (s.storeOcr v).p2 = s.p2 := rfl
@[simp] theorem State.storeOcr_binLo (v : BitVec 16) (s : State) : (s.storeOcr v).binLo = s.binLo := rfl
@[simp] theorem State.storeOcr_binHi (v : BitVec 16) (s : State) : (s.storeOcr v).binHi = s.binHi := rfl
@[simp] theorem State.storeOcr_duty (v : BitVec 16) (s : State) : (s.storeOcr v).duty = s.duty := rfl
@[simp] theorem State.storeOcr_lastMs (v : BitVec 16) (s : State) : (s.storeOcr v).lastMs = s.lastMs := rfl
@[simp] theorem State.storeOcr_ema (v : BitVec 16) (s : State) : (s.storeOcr v).ema = s.ema := rfl
@[simp] theorem State.storeOcr_gain (v : BitVec 16) (s : State) : (s.storeOcr v).gain = s.gain := rfl
@[simp] theorem State.storeOcr_e (v : BitVec 16) (s : State) : (s.storeOcr v).e = s.e := rfl
@[simp] theorem State.storeOcr_level (v : BitVec 16) (s : State) : (s.storeOcr v).level = s.level := rfl
@[simp] theorem State.storeOcr_vReal (v : BitVec 16) (s : State) : (s.storeOcr v).vReal = s.vReal := rfl
@[simp] theorem State.storeOcr_vImag (v : BitVec 16) (s : State) : (s.storeOcr v).vImag = s.vImag := rfl
@[simp] theorem State.storeOcr_hann (v : BitVec 16) (s : State) : (s.storeOcr v).hann = s.hann := rfl
@[simp] theorem State.storeOcr_twRe (v : BitVec 16) (s : State) : (s.storeOcr v).twRe = s.twRe := rfl
@[simp] theorem State.storeOcr_twIm (v : BitVec 16) (s : State) : (s.storeOcr v).twIm = s.twIm := rfl
@[simp] theorem State.storeOcr_tcfg (v : BitVec 16) (s : State) : (s.storeOcr v).tcfg = s.tcfg := rfl
@[simp] theorem State.storeOcr_ocr (v : BitVec 16) (s : State) : (s.storeOcr v).ocr = v := rfl
@[simp] theorem State.storeOcr_timer (v : BitVec 16) (s : State) : (s.storeOcr v).timer = s.timer := rfl
@[simp] theorem State.storeOcr_adcch (v : BitVec 16) (s : State) : (s.storeOcr v).adcch = s.adcch := rfl
@[simp] theorem State.storeOcr_inFlight (v : BitVec 16) (s : State) : (s.storeOcr v).inFlight = s.inFlight := rfl
@[simp] theorem State.storeOcr_serEn (v : BitVec 16) (s : State) : (s.storeOcr v).serEn = s.serEn := rfl
@[simp] theorem State.storeOcr_txq (v : BitVec 16) (s : State) : (s.storeOcr v).txq = s.txq := rfl
@[simp] theorem State.storeOcr_seen (v : BitVec 16) (s : State) : (s.storeOcr v).seen = s.seen := rfl
@[simp] theorem State.storeOcr_env (v : BitVec 16) (s : State) : (s.storeOcr v).env = s.env := rfl

/-! transmit -/

@[simp] theorem State.transmit_params (b : List Byte) (s : State) : (s.transmit b).params = s.params := rfl
@[simp] theorem State.transmit_stage (b : List Byte) (s : State) : (s.transmit b).stage = s.stage := rfl
@[simp] theorem State.transmit_i (b : List Byte) (s : State) : (s.transmit b).i = s.i := rfl
@[simp] theorem State.transmit_t0 (b : List Byte) (s : State) : (s.transmit b).t0 = s.t0 := rfl
@[simp] theorem State.transmit_raw (b : List Byte) (s : State) : (s.transmit b).raw = s.raw := rfl
@[simp] theorem State.transmit_p1 (b : List Byte) (s : State) : (s.transmit b).p1 = s.p1 := rfl
@[simp] theorem State.transmit_p2 (b : List Byte) (s : State) : (s.transmit b).p2 = s.p2 := rfl
@[simp] theorem State.transmit_binLo (b : List Byte) (s : State) : (s.transmit b).binLo = s.binLo := rfl
@[simp] theorem State.transmit_binHi (b : List Byte) (s : State) : (s.transmit b).binHi = s.binHi := rfl
@[simp] theorem State.transmit_duty (b : List Byte) (s : State) : (s.transmit b).duty = s.duty := rfl
@[simp] theorem State.transmit_lastMs (b : List Byte) (s : State) : (s.transmit b).lastMs = s.lastMs := rfl
@[simp] theorem State.transmit_ema (b : List Byte) (s : State) : (s.transmit b).ema = s.ema := rfl
@[simp] theorem State.transmit_gain (b : List Byte) (s : State) : (s.transmit b).gain = s.gain := rfl
@[simp] theorem State.transmit_e (b : List Byte) (s : State) : (s.transmit b).e = s.e := rfl
@[simp] theorem State.transmit_level (b : List Byte) (s : State) : (s.transmit b).level = s.level := rfl
@[simp] theorem State.transmit_vReal (b : List Byte) (s : State) : (s.transmit b).vReal = s.vReal := rfl
@[simp] theorem State.transmit_vImag (b : List Byte) (s : State) : (s.transmit b).vImag = s.vImag := rfl
@[simp] theorem State.transmit_hann (b : List Byte) (s : State) : (s.transmit b).hann = s.hann := rfl
@[simp] theorem State.transmit_twRe (b : List Byte) (s : State) : (s.transmit b).twRe = s.twRe := rfl
@[simp] theorem State.transmit_twIm (b : List Byte) (s : State) : (s.transmit b).twIm = s.twIm := rfl
@[simp] theorem State.transmit_tcfg (b : List Byte) (s : State) : (s.transmit b).tcfg = s.tcfg := rfl
@[simp] theorem State.transmit_ocr (b : List Byte) (s : State) : (s.transmit b).ocr = s.ocr := rfl
@[simp] theorem State.transmit_timer (b : List Byte) (s : State) : (s.transmit b).timer = s.timer := rfl
@[simp] theorem State.transmit_adcch (b : List Byte) (s : State) : (s.transmit b).adcch = s.adcch := rfl
@[simp] theorem State.transmit_inFlight (b : List Byte) (s : State) : (s.transmit b).inFlight = s.inFlight := rfl
@[simp] theorem State.transmit_serEn (b : List Byte) (s : State) : (s.transmit b).serEn = s.serEn := rfl
@[simp] theorem State.transmit_txq (b : List Byte) (s : State) : (s.transmit b).txq = s.txq ++ b := rfl
@[simp] theorem State.transmit_seen (b : List Byte) (s : State) : (s.transmit b).seen = s.seen := rfl
@[simp] theorem State.transmit_env (b : List Byte) (s : State) : (s.transmit b).env = s.env := rfl

/-! startConversion -/

@[simp] theorem State.startConversion_params (c : Channel) (s : State) :
    (s.startConversion c).params =
      s.params := rfl
@[simp] theorem State.startConversion_stage (c : Channel) (s : State) : (s.startConversion c).stage = s.stage := rfl
@[simp] theorem State.startConversion_i (c : Channel) (s : State) : (s.startConversion c).i = s.i := rfl
@[simp] theorem State.startConversion_t0 (c : Channel) (s : State) : (s.startConversion c).t0 = s.t0 := rfl
@[simp] theorem State.startConversion_raw (c : Channel) (s : State) : (s.startConversion c).raw = s.raw := rfl
@[simp] theorem State.startConversion_p1 (c : Channel) (s : State) : (s.startConversion c).p1 = s.p1 := rfl
@[simp] theorem State.startConversion_p2 (c : Channel) (s : State) : (s.startConversion c).p2 = s.p2 := rfl
@[simp] theorem State.startConversion_binLo (c : Channel) (s : State) : (s.startConversion c).binLo = s.binLo := rfl
@[simp] theorem State.startConversion_binHi (c : Channel) (s : State) : (s.startConversion c).binHi = s.binHi := rfl
@[simp] theorem State.startConversion_duty (c : Channel) (s : State) : (s.startConversion c).duty = s.duty := rfl
@[simp] theorem State.startConversion_lastMs (c : Channel) (s : State) :
    (s.startConversion c).lastMs =
      s.lastMs := rfl
@[simp] theorem State.startConversion_ema (c : Channel) (s : State) : (s.startConversion c).ema = s.ema := rfl
@[simp] theorem State.startConversion_gain (c : Channel) (s : State) : (s.startConversion c).gain = s.gain := rfl
@[simp] theorem State.startConversion_e (c : Channel) (s : State) : (s.startConversion c).e = s.e := rfl
@[simp] theorem State.startConversion_level (c : Channel) (s : State) : (s.startConversion c).level = s.level := rfl
@[simp] theorem State.startConversion_vReal (c : Channel) (s : State) : (s.startConversion c).vReal = s.vReal := rfl
@[simp] theorem State.startConversion_vImag (c : Channel) (s : State) : (s.startConversion c).vImag = s.vImag := rfl
@[simp] theorem State.startConversion_hann (c : Channel) (s : State) : (s.startConversion c).hann = s.hann := rfl
@[simp] theorem State.startConversion_twRe (c : Channel) (s : State) : (s.startConversion c).twRe = s.twRe := rfl
@[simp] theorem State.startConversion_twIm (c : Channel) (s : State) : (s.startConversion c).twIm = s.twIm := rfl
@[simp] theorem State.startConversion_tcfg (c : Channel) (s : State) : (s.startConversion c).tcfg = s.tcfg := rfl
@[simp] theorem State.startConversion_ocr (c : Channel) (s : State) : (s.startConversion c).ocr = s.ocr := rfl
@[simp] theorem State.startConversion_timer (c : Channel) (s : State) : (s.startConversion c).timer = s.timer := rfl
@[simp] theorem State.startConversion_adcch (c : Channel) (s : State) : (s.startConversion c).adcch = c.code := rfl
@[simp] theorem State.startConversion_inFlight (c : Channel) (s : State) :
    (s.startConversion c).inFlight =
      some c := rfl
@[simp] theorem State.startConversion_serEn (c : Channel) (s : State) : (s.startConversion c).serEn = s.serEn := rfl
@[simp] theorem State.startConversion_txq (c : Channel) (s : State) : (s.startConversion c).txq = s.txq := rfl
@[simp] theorem State.startConversion_seen (c : Channel) (s : State) :
    (s.startConversion c).seen =
      { s.seen with conversions := s.seen.conversions ++ [c.code] } := rfl
@[simp] theorem State.startConversion_env (c : Channel) (s : State) : (s.startConversion c).env = s.env := rfl

/-! endConversion -/

@[simp] theorem State.endConversion_params (s : State) : s.endConversion.params = s.params := rfl
@[simp] theorem State.endConversion_stage (s : State) : s.endConversion.stage = s.stage := rfl
@[simp] theorem State.endConversion_i (s : State) : s.endConversion.i = s.i := rfl
@[simp] theorem State.endConversion_t0 (s : State) : s.endConversion.t0 = s.t0 := rfl
@[simp] theorem State.endConversion_raw (s : State) : s.endConversion.raw = s.raw := rfl
@[simp] theorem State.endConversion_p1 (s : State) : s.endConversion.p1 = s.p1 := rfl
@[simp] theorem State.endConversion_p2 (s : State) : s.endConversion.p2 = s.p2 := rfl
@[simp] theorem State.endConversion_binLo (s : State) : s.endConversion.binLo = s.binLo := rfl
@[simp] theorem State.endConversion_binHi (s : State) : s.endConversion.binHi = s.binHi := rfl
@[simp] theorem State.endConversion_duty (s : State) : s.endConversion.duty = s.duty := rfl
@[simp] theorem State.endConversion_lastMs (s : State) : s.endConversion.lastMs = s.lastMs := rfl
@[simp] theorem State.endConversion_ema (s : State) : s.endConversion.ema = s.ema := rfl
@[simp] theorem State.endConversion_gain (s : State) : s.endConversion.gain = s.gain := rfl
@[simp] theorem State.endConversion_e (s : State) : s.endConversion.e = s.e := rfl
@[simp] theorem State.endConversion_level (s : State) : s.endConversion.level = s.level := rfl
@[simp] theorem State.endConversion_vReal (s : State) : s.endConversion.vReal = s.vReal := rfl
@[simp] theorem State.endConversion_vImag (s : State) : s.endConversion.vImag = s.vImag := rfl
@[simp] theorem State.endConversion_hann (s : State) : s.endConversion.hann = s.hann := rfl
@[simp] theorem State.endConversion_twRe (s : State) : s.endConversion.twRe = s.twRe := rfl
@[simp] theorem State.endConversion_twIm (s : State) : s.endConversion.twIm = s.twIm := rfl
@[simp] theorem State.endConversion_tcfg (s : State) : s.endConversion.tcfg = s.tcfg := rfl
@[simp] theorem State.endConversion_ocr (s : State) : s.endConversion.ocr = s.ocr := rfl
@[simp] theorem State.endConversion_timer (s : State) : s.endConversion.timer = s.timer := rfl
@[simp] theorem State.endConversion_adcch (s : State) : s.endConversion.adcch = s.adcch := rfl
@[simp] theorem State.endConversion_inFlight (s : State) : s.endConversion.inFlight = none := rfl
@[simp] theorem State.endConversion_serEn (s : State) : s.endConversion.serEn = s.serEn := rfl
@[simp] theorem State.endConversion_txq (s : State) : s.endConversion.txq = s.txq := rfl
@[simp] theorem State.endConversion_seen (s : State) : s.endConversion.seen = s.seen := rfl
@[simp] theorem State.endConversion_env (s : State) :
    s.endConversion.env =
      { s.env with adc := s.env.adc.rest } := rfl

/-! adcRead -/

@[simp] theorem State.adcRead_params (c : Channel) (s : State) : (s.adcRead c).params = s.params := rfl
@[simp] theorem State.adcRead_stage (c : Channel) (s : State) : (s.adcRead c).stage = s.stage := rfl
@[simp] theorem State.adcRead_i (c : Channel) (s : State) : (s.adcRead c).i = s.i := rfl
@[simp] theorem State.adcRead_t0 (c : Channel) (s : State) : (s.adcRead c).t0 = s.t0 := rfl
@[simp] theorem State.adcRead_raw (c : Channel) (s : State) : (s.adcRead c).raw = s.raw := rfl
@[simp] theorem State.adcRead_p1 (c : Channel) (s : State) : (s.adcRead c).p1 = s.p1 := rfl
@[simp] theorem State.adcRead_p2 (c : Channel) (s : State) : (s.adcRead c).p2 = s.p2 := rfl
@[simp] theorem State.adcRead_binLo (c : Channel) (s : State) : (s.adcRead c).binLo = s.binLo := rfl
@[simp] theorem State.adcRead_binHi (c : Channel) (s : State) : (s.adcRead c).binHi = s.binHi := rfl
@[simp] theorem State.adcRead_duty (c : Channel) (s : State) : (s.adcRead c).duty = s.duty := rfl
@[simp] theorem State.adcRead_lastMs (c : Channel) (s : State) : (s.adcRead c).lastMs = s.lastMs := rfl
@[simp] theorem State.adcRead_ema (c : Channel) (s : State) : (s.adcRead c).ema = s.ema := rfl
@[simp] theorem State.adcRead_gain (c : Channel) (s : State) : (s.adcRead c).gain = s.gain := rfl
@[simp] theorem State.adcRead_e (c : Channel) (s : State) : (s.adcRead c).e = s.e := rfl
@[simp] theorem State.adcRead_level (c : Channel) (s : State) : (s.adcRead c).level = s.level := rfl
@[simp] theorem State.adcRead_vReal (c : Channel) (s : State) : (s.adcRead c).vReal = s.vReal := rfl
@[simp] theorem State.adcRead_vImag (c : Channel) (s : State) : (s.adcRead c).vImag = s.vImag := rfl
@[simp] theorem State.adcRead_hann (c : Channel) (s : State) : (s.adcRead c).hann = s.hann := rfl
@[simp] theorem State.adcRead_twRe (c : Channel) (s : State) : (s.adcRead c).twRe = s.twRe := rfl
@[simp] theorem State.adcRead_twIm (c : Channel) (s : State) : (s.adcRead c).twIm = s.twIm := rfl
@[simp] theorem State.adcRead_tcfg (c : Channel) (s : State) : (s.adcRead c).tcfg = s.tcfg := rfl
@[simp] theorem State.adcRead_ocr (c : Channel) (s : State) : (s.adcRead c).ocr = s.ocr := rfl
@[simp] theorem State.adcRead_timer (c : Channel) (s : State) : (s.adcRead c).timer = s.timer := rfl
@[simp] theorem State.adcRead_adcch (c : Channel) (s : State) : (s.adcRead c).adcch = c.code := rfl
@[simp] theorem State.adcRead_inFlight (c : Channel) (s : State) : (s.adcRead c).inFlight = none := rfl
@[simp] theorem State.adcRead_serEn (c : Channel) (s : State) : (s.adcRead c).serEn = s.serEn := rfl
@[simp] theorem State.adcRead_txq (c : Channel) (s : State) : (s.adcRead c).txq = s.txq := rfl
@[simp] theorem State.adcRead_seen (c : Channel) (s : State) :
    (s.adcRead c).seen =
      { s.seen with conversions := s.seen.conversions ++ [c.code] } := rfl
@[simp] theorem State.adcRead_env (c : Channel) (s : State) :
    (s.adcRead c).env =
      { s.env with adc := s.env.adc.rest } := rfl

/-! runTimer -/

@[simp] theorem State.runTimer_params (s : State) : s.runTimer.params = s.params := rfl
@[simp] theorem State.runTimer_stage (s : State) : s.runTimer.stage = s.stage := rfl
@[simp] theorem State.runTimer_i (s : State) : s.runTimer.i = s.i := rfl
@[simp] theorem State.runTimer_t0 (s : State) : s.runTimer.t0 = s.t0 := rfl
@[simp] theorem State.runTimer_raw (s : State) : s.runTimer.raw = s.raw := rfl
@[simp] theorem State.runTimer_p1 (s : State) : s.runTimer.p1 = s.p1 := rfl
@[simp] theorem State.runTimer_p2 (s : State) : s.runTimer.p2 = s.p2 := rfl
@[simp] theorem State.runTimer_binLo (s : State) : s.runTimer.binLo = s.binLo := rfl
@[simp] theorem State.runTimer_binHi (s : State) : s.runTimer.binHi = s.binHi := rfl
@[simp] theorem State.runTimer_duty (s : State) : s.runTimer.duty = s.duty := rfl
@[simp] theorem State.runTimer_lastMs (s : State) : s.runTimer.lastMs = s.lastMs := rfl
@[simp] theorem State.runTimer_ema (s : State) : s.runTimer.ema = s.ema := rfl
@[simp] theorem State.runTimer_gain (s : State) : s.runTimer.gain = s.gain := rfl
@[simp] theorem State.runTimer_e (s : State) : s.runTimer.e = s.e := rfl
@[simp] theorem State.runTimer_level (s : State) : s.runTimer.level = s.level := rfl
@[simp] theorem State.runTimer_vReal (s : State) : s.runTimer.vReal = s.vReal := rfl
@[simp] theorem State.runTimer_vImag (s : State) : s.runTimer.vImag = s.vImag := rfl
@[simp] theorem State.runTimer_hann (s : State) : s.runTimer.hann = s.hann := rfl
@[simp] theorem State.runTimer_twRe (s : State) : s.runTimer.twRe = s.twRe := rfl
@[simp] theorem State.runTimer_twIm (s : State) : s.runTimer.twIm = s.twIm := rfl
@[simp] theorem State.runTimer_tcfg (s : State) : s.runTimer.tcfg = s.tcfg := rfl
@[simp] theorem State.runTimer_ocr (s : State) : s.runTimer.ocr = s.ocr := rfl
@[simp] theorem State.runTimer_timer (s : State) :
    s.runTimer.timer =
      Timer.clocks s.tcfg s.ocr s.timerClockCount s.timer := rfl
@[simp] theorem State.runTimer_adcch (s : State) : s.runTimer.adcch = s.adcch := rfl
@[simp] theorem State.runTimer_inFlight (s : State) : s.runTimer.inFlight = s.inFlight := rfl
@[simp] theorem State.runTimer_serEn (s : State) : s.runTimer.serEn = s.serEn := rfl
@[simp] theorem State.runTimer_txq (s : State) : s.runTimer.txq = s.txq := rfl
@[simp] theorem State.runTimer_seen (s : State) : s.runTimer.seen = s.seen := rfl
@[simp] theorem State.runTimer_env (s : State) : s.runTimer.env = { s.env with ticks := s.env.ticks.rest } := rfl

/-! dropReset -/

@[simp] theorem State.dropReset_params (s : State) : s.dropReset.params = s.params := rfl
@[simp] theorem State.dropReset_stage (s : State) : s.dropReset.stage = s.stage := rfl
@[simp] theorem State.dropReset_i (s : State) : s.dropReset.i = s.i := rfl
@[simp] theorem State.dropReset_t0 (s : State) : s.dropReset.t0 = s.t0 := rfl
@[simp] theorem State.dropReset_raw (s : State) : s.dropReset.raw = s.raw := rfl
@[simp] theorem State.dropReset_p1 (s : State) : s.dropReset.p1 = s.p1 := rfl
@[simp] theorem State.dropReset_p2 (s : State) : s.dropReset.p2 = s.p2 := rfl
@[simp] theorem State.dropReset_binLo (s : State) : s.dropReset.binLo = s.binLo := rfl
@[simp] theorem State.dropReset_binHi (s : State) : s.dropReset.binHi = s.binHi := rfl
@[simp] theorem State.dropReset_duty (s : State) : s.dropReset.duty = s.duty := rfl
@[simp] theorem State.dropReset_lastMs (s : State) : s.dropReset.lastMs = s.lastMs := rfl
@[simp] theorem State.dropReset_ema (s : State) : s.dropReset.ema = s.ema := rfl
@[simp] theorem State.dropReset_gain (s : State) : s.dropReset.gain = s.gain := rfl
@[simp] theorem State.dropReset_e (s : State) : s.dropReset.e = s.e := rfl
@[simp] theorem State.dropReset_level (s : State) : s.dropReset.level = s.level := rfl
@[simp] theorem State.dropReset_vReal (s : State) : s.dropReset.vReal = s.vReal := rfl
@[simp] theorem State.dropReset_vImag (s : State) : s.dropReset.vImag = s.vImag := rfl
@[simp] theorem State.dropReset_hann (s : State) : s.dropReset.hann = s.hann := rfl
@[simp] theorem State.dropReset_twRe (s : State) : s.dropReset.twRe = s.twRe := rfl
@[simp] theorem State.dropReset_twIm (s : State) : s.dropReset.twIm = s.twIm := rfl
@[simp] theorem State.dropReset_tcfg (s : State) : s.dropReset.tcfg = s.tcfg := rfl
@[simp] theorem State.dropReset_ocr (s : State) : s.dropReset.ocr = s.ocr := rfl
@[simp] theorem State.dropReset_timer (s : State) : s.dropReset.timer = s.timer := rfl
@[simp] theorem State.dropReset_adcch (s : State) : s.dropReset.adcch = s.adcch := rfl
@[simp] theorem State.dropReset_inFlight (s : State) : s.dropReset.inFlight = s.inFlight := rfl
@[simp] theorem State.dropReset_serEn (s : State) : s.dropReset.serEn = s.serEn := rfl
@[simp] theorem State.dropReset_txq (s : State) : s.dropReset.txq = s.txq := rfl
@[simp] theorem State.dropReset_seen (s : State) : s.dropReset.seen = s.seen := rfl
@[simp] theorem State.dropReset_env (s : State) : s.dropReset.env = { s.env with rst := s.env.rst.tail } := rfl

/-! sampleStart -/

@[simp] theorem State.sampleStart_params (s : State) : s.sampleStart.params = s.params := rfl
@[simp] theorem State.sampleStart_stage (s : State) : s.sampleStart.stage = s.stage := rfl
@[simp] theorem State.sampleStart_i (s : State) : s.sampleStart.i = 0 := rfl
@[simp] theorem State.sampleStart_t0 (s : State) : s.sampleStart.t0 = s.env.us.read.now := rfl
@[simp] theorem State.sampleStart_raw (s : State) : s.sampleStart.raw = s.raw := rfl
@[simp] theorem State.sampleStart_p1 (s : State) : s.sampleStart.p1 = s.p1 := rfl
@[simp] theorem State.sampleStart_p2 (s : State) : s.sampleStart.p2 = s.p2 := rfl
@[simp] theorem State.sampleStart_binLo (s : State) : s.sampleStart.binLo = s.binLo := rfl
@[simp] theorem State.sampleStart_binHi (s : State) : s.sampleStart.binHi = s.binHi := rfl
@[simp] theorem State.sampleStart_duty (s : State) : s.sampleStart.duty = s.duty := rfl
@[simp] theorem State.sampleStart_lastMs (s : State) : s.sampleStart.lastMs = s.lastMs := rfl
@[simp] theorem State.sampleStart_ema (s : State) : s.sampleStart.ema = s.ema := rfl
@[simp] theorem State.sampleStart_gain (s : State) : s.sampleStart.gain = s.gain := rfl
@[simp] theorem State.sampleStart_e (s : State) : s.sampleStart.e = s.e := rfl
@[simp] theorem State.sampleStart_level (s : State) : s.sampleStart.level = s.level := rfl
@[simp] theorem State.sampleStart_vReal (s : State) : s.sampleStart.vReal = s.vReal := rfl
@[simp] theorem State.sampleStart_vImag (s : State) : s.sampleStart.vImag = s.vImag := rfl
@[simp] theorem State.sampleStart_hann (s : State) : s.sampleStart.hann = s.hann := rfl
@[simp] theorem State.sampleStart_twRe (s : State) : s.sampleStart.twRe = s.twRe := rfl
@[simp] theorem State.sampleStart_twIm (s : State) : s.sampleStart.twIm = s.twIm := rfl
@[simp] theorem State.sampleStart_tcfg (s : State) : s.sampleStart.tcfg = s.tcfg := rfl
@[simp] theorem State.sampleStart_ocr (s : State) : s.sampleStart.ocr = s.ocr := rfl
@[simp] theorem State.sampleStart_timer (s : State) : s.sampleStart.timer = s.timer := rfl
@[simp] theorem State.sampleStart_adcch (s : State) : s.sampleStart.adcch = s.adcch := rfl
@[simp] theorem State.sampleStart_inFlight (s : State) : s.sampleStart.inFlight = s.inFlight := rfl
@[simp] theorem State.sampleStart_serEn (s : State) : s.sampleStart.serEn = s.serEn := rfl
@[simp] theorem State.sampleStart_txq (s : State) : s.sampleStart.txq = s.txq := rfl
@[simp] theorem State.sampleStart_seen (s : State) : s.sampleStart.seen = s.seen := rfl
@[simp] theorem State.sampleStart_env (s : State) : s.sampleStart.env = { s.env with us := s.env.us.read } := rfl

/-! sampleWait -/

@[simp] theorem State.sampleWait_params (s : State) : s.sampleWait.params = s.params := rfl
@[simp] theorem State.sampleWait_stage (s : State) : s.sampleWait.stage = s.stage := rfl
@[simp] theorem State.sampleWait_i (s : State) : s.sampleWait.i = s.i := rfl
@[simp] theorem State.sampleWait_t0 (s : State) : s.sampleWait.t0 = s.t0 := rfl
@[simp] theorem State.sampleWait_raw (s : State) : s.sampleWait.raw = s.raw := rfl
@[simp] theorem State.sampleWait_p1 (s : State) : s.sampleWait.p1 = s.p1 := rfl
@[simp] theorem State.sampleWait_p2 (s : State) : s.sampleWait.p2 = s.p2 := rfl
@[simp] theorem State.sampleWait_binLo (s : State) : s.sampleWait.binLo = s.binLo := rfl
@[simp] theorem State.sampleWait_binHi (s : State) : s.sampleWait.binHi = s.binHi := rfl
@[simp] theorem State.sampleWait_duty (s : State) : s.sampleWait.duty = s.duty := rfl
@[simp] theorem State.sampleWait_lastMs (s : State) : s.sampleWait.lastMs = s.lastMs := rfl
@[simp] theorem State.sampleWait_ema (s : State) : s.sampleWait.ema = s.ema := rfl
@[simp] theorem State.sampleWait_gain (s : State) : s.sampleWait.gain = s.gain := rfl
@[simp] theorem State.sampleWait_e (s : State) : s.sampleWait.e = s.e := rfl
@[simp] theorem State.sampleWait_level (s : State) : s.sampleWait.level = s.level := rfl
@[simp] theorem State.sampleWait_vReal (s : State) : s.sampleWait.vReal = s.vReal := rfl
@[simp] theorem State.sampleWait_vImag (s : State) : s.sampleWait.vImag = s.vImag := rfl
@[simp] theorem State.sampleWait_hann (s : State) : s.sampleWait.hann = s.hann := rfl
@[simp] theorem State.sampleWait_twRe (s : State) : s.sampleWait.twRe = s.twRe := rfl
@[simp] theorem State.sampleWait_twIm (s : State) : s.sampleWait.twIm = s.twIm := rfl
@[simp] theorem State.sampleWait_tcfg (s : State) : s.sampleWait.tcfg = s.tcfg := rfl
@[simp] theorem State.sampleWait_ocr (s : State) : s.sampleWait.ocr = s.ocr := rfl
@[simp] theorem State.sampleWait_timer (s : State) : s.sampleWait.timer = s.timer := rfl
@[simp] theorem State.sampleWait_adcch (s : State) : s.sampleWait.adcch = s.adcch := rfl
@[simp] theorem State.sampleWait_inFlight (s : State) : s.sampleWait.inFlight = s.inFlight := rfl
@[simp] theorem State.sampleWait_serEn (s : State) : s.sampleWait.serEn = s.serEn := rfl
@[simp] theorem State.sampleWait_txq (s : State) : s.sampleWait.txq = s.txq := rfl
@[simp] theorem State.sampleWait_seen (s : State) : s.sampleWait.seen = s.seen := rfl
@[simp] theorem State.sampleWait_env (s : State) :
    s.sampleWait.env =
      { s.env with us := s.env.us.waitUntil (sampleDeadline s.t0 s.i.toNat) } := rfl

/-! sampleStore -/

@[simp] theorem State.sampleStore_params (s : State) : s.sampleStore.params = s.params := rfl
@[simp] theorem State.sampleStore_stage (s : State) : s.sampleStore.stage = s.stage := rfl
@[simp] theorem State.sampleStore_i (s : State) : s.sampleStore.i = s.i + 1 := rfl
@[simp] theorem State.sampleStore_t0 (s : State) : s.sampleStore.t0 = s.t0 := rfl
@[simp] theorem State.sampleStore_raw (s : State) : s.sampleStore.raw = s.conversionResult := rfl
@[simp] theorem State.sampleStore_p1 (s : State) : s.sampleStore.p1 = s.p1 := rfl
@[simp] theorem State.sampleStore_p2 (s : State) : s.sampleStore.p2 = s.p2 := rfl
@[simp] theorem State.sampleStore_binLo (s : State) : s.sampleStore.binLo = s.binLo := rfl
@[simp] theorem State.sampleStore_binHi (s : State) : s.sampleStore.binHi = s.binHi := rfl
@[simp] theorem State.sampleStore_duty (s : State) : s.sampleStore.duty = s.duty := rfl
@[simp] theorem State.sampleStore_lastMs (s : State) : s.sampleStore.lastMs = s.lastMs := rfl
@[simp] theorem State.sampleStore_ema (s : State) : s.sampleStore.ema = s.ema := rfl
@[simp] theorem State.sampleStore_gain (s : State) : s.sampleStore.gain = s.gain := rfl
@[simp] theorem State.sampleStore_e (s : State) : s.sampleStore.e = s.e := rfl
@[simp] theorem State.sampleStore_level (s : State) : s.sampleStore.level = s.level := rfl
@[simp] theorem State.sampleStore_vReal (s : State) :
    s.sampleStore.vReal =
      s.vReal.set s.i.toNat (windowedSample num s.conversionResult (wordAt num s.hann s.i.toNat)) := rfl
@[simp] theorem State.sampleStore_vImag (s : State) :
    s.sampleStore.vImag =
      s.vImag.set s.i.toNat (Numeric.zero num) := rfl
@[simp] theorem State.sampleStore_hann (s : State) : s.sampleStore.hann = s.hann := rfl
@[simp] theorem State.sampleStore_twRe (s : State) : s.sampleStore.twRe = s.twRe := rfl
@[simp] theorem State.sampleStore_twIm (s : State) : s.sampleStore.twIm = s.twIm := rfl
@[simp] theorem State.sampleStore_tcfg (s : State) : s.sampleStore.tcfg = s.tcfg := rfl
@[simp] theorem State.sampleStore_ocr (s : State) : s.sampleStore.ocr = s.ocr := rfl
@[simp] theorem State.sampleStore_timer (s : State) : s.sampleStore.timer = s.timer := rfl
@[simp] theorem State.sampleStore_adcch (s : State) : s.sampleStore.adcch = 0 := rfl
@[simp] theorem State.sampleStore_inFlight (s : State) : s.sampleStore.inFlight = none := rfl
@[simp] theorem State.sampleStore_serEn (s : State) : s.sampleStore.serEn = s.serEn := rfl
@[simp] theorem State.sampleStore_txq (s : State) : s.sampleStore.txq = s.txq := rfl
@[simp] theorem State.sampleStore_seen (s : State) :
    s.sampleStore.seen =
      { s.seen with conversions := s.seen.conversions ++ [0] } := rfl
@[simp] theorem State.sampleStore_env (s : State) : s.sampleStore.env = { s.env with adc := s.env.adc.rest } := rfl

/-! readPot1 -/

@[simp] theorem State.readPot1_params (s : State) : s.readPot1.params = s.params := rfl
@[simp] theorem State.readPot1_stage (s : State) : s.readPot1.stage = s.stage := rfl
@[simp] theorem State.readPot1_i (s : State) : s.readPot1.i = s.i := rfl
@[simp] theorem State.readPot1_t0 (s : State) : s.readPot1.t0 = s.t0 := rfl
@[simp] theorem State.readPot1_raw (s : State) : s.readPot1.raw = s.raw := rfl
@[simp] theorem State.readPot1_p1 (s : State) : s.readPot1.p1 = s.conversionResult := rfl
@[simp] theorem State.readPot1_p2 (s : State) : s.readPot1.p2 = s.p2 := rfl
@[simp] theorem State.readPot1_binLo (s : State) : s.readPot1.binLo = s.binLo := rfl
@[simp] theorem State.readPot1_binHi (s : State) : s.readPot1.binHi = s.binHi := rfl
@[simp] theorem State.readPot1_duty (s : State) : s.readPot1.duty = s.duty := rfl
@[simp] theorem State.readPot1_lastMs (s : State) : s.readPot1.lastMs = s.lastMs := rfl
@[simp] theorem State.readPot1_ema (s : State) : s.readPot1.ema = s.ema := rfl
@[simp] theorem State.readPot1_gain (s : State) : s.readPot1.gain = s.gain := rfl
@[simp] theorem State.readPot1_e (s : State) : s.readPot1.e = s.e := rfl
@[simp] theorem State.readPot1_level (s : State) : s.readPot1.level = s.level := rfl
@[simp] theorem State.readPot1_vReal (s : State) : s.readPot1.vReal = s.vReal := rfl
@[simp] theorem State.readPot1_vImag (s : State) : s.readPot1.vImag = s.vImag := rfl
@[simp] theorem State.readPot1_hann (s : State) : s.readPot1.hann = s.hann := rfl
@[simp] theorem State.readPot1_twRe (s : State) : s.readPot1.twRe = s.twRe := rfl
@[simp] theorem State.readPot1_twIm (s : State) : s.readPot1.twIm = s.twIm := rfl
@[simp] theorem State.readPot1_tcfg (s : State) : s.readPot1.tcfg = s.tcfg := rfl
@[simp] theorem State.readPot1_ocr (s : State) : s.readPot1.ocr = s.ocr := rfl
@[simp] theorem State.readPot1_timer (s : State) : s.readPot1.timer = s.timer := rfl
@[simp] theorem State.readPot1_adcch (s : State) : s.readPot1.adcch = 1 := rfl
@[simp] theorem State.readPot1_inFlight (s : State) : s.readPot1.inFlight = none := rfl
@[simp] theorem State.readPot1_serEn (s : State) : s.readPot1.serEn = s.serEn := rfl
@[simp] theorem State.readPot1_txq (s : State) : s.readPot1.txq = s.txq := rfl
@[simp] theorem State.readPot1_seen (s : State) :
    s.readPot1.seen =
      { s.seen with conversions := s.seen.conversions ++ [1] } := rfl
@[simp] theorem State.readPot1_env (s : State) : s.readPot1.env = { s.env with adc := s.env.adc.rest } := rfl

/-! readPot2 -/

@[simp] theorem State.readPot2_params (s : State) : s.readPot2.params = s.params := rfl
@[simp] theorem State.readPot2_stage (s : State) : s.readPot2.stage = s.stage := rfl
@[simp] theorem State.readPot2_i (s : State) : s.readPot2.i = s.i := rfl
@[simp] theorem State.readPot2_t0 (s : State) : s.readPot2.t0 = s.t0 := rfl
@[simp] theorem State.readPot2_raw (s : State) : s.readPot2.raw = s.raw := rfl
@[simp] theorem State.readPot2_p1 (s : State) : s.readPot2.p1 = s.p1 := rfl
@[simp] theorem State.readPot2_p2 (s : State) : s.readPot2.p2 = s.conversionResult := rfl
@[simp] theorem State.readPot2_binLo (s : State) : s.readPot2.binLo = s.binLo := rfl
@[simp] theorem State.readPot2_binHi (s : State) : s.readPot2.binHi = s.binHi := rfl
@[simp] theorem State.readPot2_duty (s : State) : s.readPot2.duty = s.duty := rfl
@[simp] theorem State.readPot2_lastMs (s : State) : s.readPot2.lastMs = s.lastMs := rfl
@[simp] theorem State.readPot2_ema (s : State) : s.readPot2.ema = s.ema := rfl
@[simp] theorem State.readPot2_gain (s : State) : s.readPot2.gain = s.gain := rfl
@[simp] theorem State.readPot2_e (s : State) : s.readPot2.e = s.e := rfl
@[simp] theorem State.readPot2_level (s : State) : s.readPot2.level = s.level := rfl
@[simp] theorem State.readPot2_vReal (s : State) : s.readPot2.vReal = s.vReal := rfl
@[simp] theorem State.readPot2_vImag (s : State) : s.readPot2.vImag = s.vImag := rfl
@[simp] theorem State.readPot2_hann (s : State) : s.readPot2.hann = s.hann := rfl
@[simp] theorem State.readPot2_twRe (s : State) : s.readPot2.twRe = s.twRe := rfl
@[simp] theorem State.readPot2_twIm (s : State) : s.readPot2.twIm = s.twIm := rfl
@[simp] theorem State.readPot2_tcfg (s : State) : s.readPot2.tcfg = s.tcfg := rfl
@[simp] theorem State.readPot2_ocr (s : State) : s.readPot2.ocr = s.ocr := rfl
@[simp] theorem State.readPot2_timer (s : State) : s.readPot2.timer = s.timer := rfl
@[simp] theorem State.readPot2_adcch (s : State) : s.readPot2.adcch = 2 := rfl
@[simp] theorem State.readPot2_inFlight (s : State) : s.readPot2.inFlight = none := rfl
@[simp] theorem State.readPot2_serEn (s : State) : s.readPot2.serEn = s.serEn := rfl
@[simp] theorem State.readPot2_txq (s : State) : s.readPot2.txq = s.txq := rfl
@[simp] theorem State.readPot2_seen (s : State) :
    s.readPot2.seen =
      { s.seen with conversions := s.seen.conversions ++ [2] } := rfl
@[simp] theorem State.readPot2_env (s : State) : s.readPot2.env = { s.env with adc := s.env.adc.rest } := rfl

/-! setBand -/

@[simp] theorem State.setBand_params (s : State) : s.setBand.params = s.params := rfl
@[simp] theorem State.setBand_stage (s : State) : s.setBand.stage = s.stage := rfl
@[simp] theorem State.setBand_i (s : State) : s.setBand.i = s.i := rfl
@[simp] theorem State.setBand_t0 (s : State) : s.setBand.t0 = s.t0 := rfl
@[simp] theorem State.setBand_raw (s : State) : s.setBand.raw = s.raw := rfl
@[simp] theorem State.setBand_p1 (s : State) : s.setBand.p1 = s.p1 := rfl
@[simp] theorem State.setBand_p2 (s : State) : s.setBand.p2 = s.p2 := rfl
@[simp] theorem State.setBand_binLo (s : State) :
    s.setBand.binLo =
      BitVec.ofNat 7 (bandLow s.params.frame.nyq s.p1.toNat) := rfl
@[simp] theorem State.setBand_binHi (s : State) :
    s.setBand.binHi =
      BitVec.ofNat 7 (bandHigh s.params.frame.nyq (bandLow s.params.frame.nyq s.p1.toNat) s.p2.toNat) := rfl
@[simp] theorem State.setBand_duty (s : State) : s.setBand.duty = s.duty := rfl
@[simp] theorem State.setBand_lastMs (s : State) : s.setBand.lastMs = s.lastMs := rfl
@[simp] theorem State.setBand_ema (s : State) : s.setBand.ema = s.ema := rfl
@[simp] theorem State.setBand_gain (s : State) : s.setBand.gain = s.gain := rfl
@[simp] theorem State.setBand_e (s : State) : s.setBand.e = s.e := rfl
@[simp] theorem State.setBand_level (s : State) : s.setBand.level = s.level := rfl
@[simp] theorem State.setBand_vReal (s : State) : s.setBand.vReal = s.vReal := rfl
@[simp] theorem State.setBand_vImag (s : State) : s.setBand.vImag = s.vImag := rfl
@[simp] theorem State.setBand_hann (s : State) : s.setBand.hann = s.hann := rfl
@[simp] theorem State.setBand_twRe (s : State) : s.setBand.twRe = s.twRe := rfl
@[simp] theorem State.setBand_twIm (s : State) : s.setBand.twIm = s.twIm := rfl
@[simp] theorem State.setBand_tcfg (s : State) : s.setBand.tcfg = s.tcfg := rfl
@[simp] theorem State.setBand_ocr (s : State) : s.setBand.ocr = s.ocr := rfl
@[simp] theorem State.setBand_timer (s : State) : s.setBand.timer = s.timer := rfl
@[simp] theorem State.setBand_adcch (s : State) : s.setBand.adcch = s.adcch := rfl
@[simp] theorem State.setBand_inFlight (s : State) : s.setBand.inFlight = s.inFlight := rfl
@[simp] theorem State.setBand_serEn (s : State) : s.setBand.serEn = s.serEn := rfl
@[simp] theorem State.setBand_txq (s : State) : s.setBand.txq = s.txq := rfl
@[simp] theorem State.setBand_seen (s : State) : s.setBand.seen = s.seen := rfl
@[simp] theorem State.setBand_env (s : State) : s.setBand.env = s.env := rfl

/-! setControl -/

@[simp] theorem State.setControl_params (c : Control NumWord) (s : State) : (s.setControl c).params = s.params := rfl
@[simp] theorem State.setControl_stage (c : Control NumWord) (s : State) : (s.setControl c).stage = s.stage := rfl
@[simp] theorem State.setControl_i (c : Control NumWord) (s : State) : (s.setControl c).i = s.i := rfl
@[simp] theorem State.setControl_t0 (c : Control NumWord) (s : State) : (s.setControl c).t0 = s.t0 := rfl
@[simp] theorem State.setControl_raw (c : Control NumWord) (s : State) : (s.setControl c).raw = s.raw := rfl
@[simp] theorem State.setControl_p1 (c : Control NumWord) (s : State) : (s.setControl c).p1 = s.p1 := rfl
@[simp] theorem State.setControl_p2 (c : Control NumWord) (s : State) : (s.setControl c).p2 = s.p2 := rfl
@[simp] theorem State.setControl_binLo (c : Control NumWord) (s : State) : (s.setControl c).binLo = s.binLo := rfl
@[simp] theorem State.setControl_binHi (c : Control NumWord) (s : State) : (s.setControl c).binHi = s.binHi := rfl
@[simp] theorem State.setControl_duty (c : Control NumWord) (s : State) : (s.setControl c).duty = s.duty := rfl
@[simp] theorem State.setControl_lastMs (c : Control NumWord) (s : State) : (s.setControl c).lastMs = s.lastMs := rfl
@[simp] theorem State.setControl_ema (c : Control NumWord) (s : State) : (s.setControl c).ema = c.ema := rfl
@[simp] theorem State.setControl_gain (c : Control NumWord) (s : State) : (s.setControl c).gain = c.gain := rfl
@[simp] theorem State.setControl_e (c : Control NumWord) (s : State) : (s.setControl c).e = s.e := rfl
@[simp] theorem State.setControl_level (c : Control NumWord) (s : State) : (s.setControl c).level = c.level := rfl
@[simp] theorem State.setControl_vReal (c : Control NumWord) (s : State) : (s.setControl c).vReal = s.vReal := rfl
@[simp] theorem State.setControl_vImag (c : Control NumWord) (s : State) : (s.setControl c).vImag = s.vImag := rfl
@[simp] theorem State.setControl_hann (c : Control NumWord) (s : State) : (s.setControl c).hann = s.hann := rfl
@[simp] theorem State.setControl_twRe (c : Control NumWord) (s : State) : (s.setControl c).twRe = s.twRe := rfl
@[simp] theorem State.setControl_twIm (c : Control NumWord) (s : State) : (s.setControl c).twIm = s.twIm := rfl
@[simp] theorem State.setControl_tcfg (c : Control NumWord) (s : State) : (s.setControl c).tcfg = s.tcfg := rfl
@[simp] theorem State.setControl_ocr (c : Control NumWord) (s : State) : (s.setControl c).ocr = s.ocr := rfl
@[simp] theorem State.setControl_timer (c : Control NumWord) (s : State) : (s.setControl c).timer = s.timer := rfl
@[simp] theorem State.setControl_adcch (c : Control NumWord) (s : State) : (s.setControl c).adcch = s.adcch := rfl
@[simp] theorem State.setControl_inFlight (c : Control NumWord) (s : State) :
    (s.setControl c).inFlight =
      s.inFlight := rfl
@[simp] theorem State.setControl_serEn (c : Control NumWord) (s : State) : (s.setControl c).serEn = s.serEn := rfl
@[simp] theorem State.setControl_txq (c : Control NumWord) (s : State) : (s.setControl c).txq = s.txq := rfl
@[simp] theorem State.setControl_seen (c : Control NumWord) (s : State) : (s.setControl c).seen = s.seen := rfl
@[simp] theorem State.setControl_env (c : Control NumWord) (s : State) : (s.setControl c).env = s.env := rfl

/-! traceAt -/

@[simp] theorem State.traceAt_params (k : MsClock) (l : List Byte) (s : State) :
    (s.traceAt k l).params =
      s.params := rfl
@[simp] theorem State.traceAt_stage (k : MsClock) (l : List Byte) (s : State) :
    (s.traceAt k l).stage =
      s.stage := rfl
@[simp] theorem State.traceAt_i (k : MsClock) (l : List Byte) (s : State) : (s.traceAt k l).i = s.i := rfl
@[simp] theorem State.traceAt_t0 (k : MsClock) (l : List Byte) (s : State) : (s.traceAt k l).t0 = s.t0 := rfl
@[simp] theorem State.traceAt_raw (k : MsClock) (l : List Byte) (s : State) : (s.traceAt k l).raw = s.raw := rfl
@[simp] theorem State.traceAt_p1 (k : MsClock) (l : List Byte) (s : State) : (s.traceAt k l).p1 = s.p1 := rfl
@[simp] theorem State.traceAt_p2 (k : MsClock) (l : List Byte) (s : State) : (s.traceAt k l).p2 = s.p2 := rfl
@[simp] theorem State.traceAt_binLo (k : MsClock) (l : List Byte) (s : State) :
    (s.traceAt k l).binLo =
      s.binLo := rfl
@[simp] theorem State.traceAt_binHi (k : MsClock) (l : List Byte) (s : State) :
    (s.traceAt k l).binHi =
      s.binHi := rfl
@[simp] theorem State.traceAt_duty (k : MsClock) (l : List Byte) (s : State) : (s.traceAt k l).duty = s.duty := rfl
@[simp] theorem State.traceAt_lastMs (k : MsClock) (l : List Byte) (s : State) :
    (s.traceAt k l).lastMs =
      if traceDue k.now s.lastMs then k.now else s.lastMs := rfl
@[simp] theorem State.traceAt_ema (k : MsClock) (l : List Byte) (s : State) : (s.traceAt k l).ema = s.ema := rfl
@[simp] theorem State.traceAt_gain (k : MsClock) (l : List Byte) (s : State) : (s.traceAt k l).gain = s.gain := rfl
@[simp] theorem State.traceAt_e (k : MsClock) (l : List Byte) (s : State) : (s.traceAt k l).e = s.e := rfl
@[simp] theorem State.traceAt_level (k : MsClock) (l : List Byte) (s : State) :
    (s.traceAt k l).level =
      s.level := rfl
@[simp] theorem State.traceAt_vReal (k : MsClock) (l : List Byte) (s : State) :
    (s.traceAt k l).vReal =
      s.vReal := rfl
@[simp] theorem State.traceAt_vImag (k : MsClock) (l : List Byte) (s : State) :
    (s.traceAt k l).vImag =
      s.vImag := rfl
@[simp] theorem State.traceAt_hann (k : MsClock) (l : List Byte) (s : State) : (s.traceAt k l).hann = s.hann := rfl
@[simp] theorem State.traceAt_twRe (k : MsClock) (l : List Byte) (s : State) : (s.traceAt k l).twRe = s.twRe := rfl
@[simp] theorem State.traceAt_twIm (k : MsClock) (l : List Byte) (s : State) : (s.traceAt k l).twIm = s.twIm := rfl
@[simp] theorem State.traceAt_tcfg (k : MsClock) (l : List Byte) (s : State) : (s.traceAt k l).tcfg = s.tcfg := rfl
@[simp] theorem State.traceAt_ocr (k : MsClock) (l : List Byte) (s : State) : (s.traceAt k l).ocr = s.ocr := rfl
@[simp] theorem State.traceAt_timer (k : MsClock) (l : List Byte) (s : State) :
    (s.traceAt k l).timer =
      s.timer := rfl
@[simp] theorem State.traceAt_adcch (k : MsClock) (l : List Byte) (s : State) :
    (s.traceAt k l).adcch =
      s.adcch := rfl
@[simp] theorem State.traceAt_inFlight (k : MsClock) (l : List Byte) (s : State) :
    (s.traceAt k l).inFlight =
      s.inFlight := rfl
@[simp] theorem State.traceAt_serEn (k : MsClock) (l : List Byte) (s : State) :
    (s.traceAt k l).serEn =
      s.serEn := rfl
@[simp] theorem State.traceAt_txq (k : MsClock) (l : List Byte) (s : State) :
    (s.traceAt k l).txq =
      if traceDue k.now s.lastMs then s.txq ++ l else s.txq := rfl
@[simp] theorem State.traceAt_seen (k : MsClock) (l : List Byte) (s : State) : (s.traceAt k l).seen = s.seen := rfl
@[simp] theorem State.traceAt_env (k : MsClock) (l : List Byte) (s : State) :
    (s.traceAt k l).env =
      { s.env with ms := k } := rfl

/-! withFetchWord -/

@[simp] theorem State.withFetchWord_params (s : State) (n w : Nat) : (s.withFetchWord n w).params = s.params := rfl
@[simp] theorem State.withFetchWord_stage (s : State) (n w : Nat) :
    (s.withFetchWord n w).stage =
      opOfTableWord n w := rfl
@[simp] theorem State.withFetchWord_i (s : State) (n w : Nat) : (s.withFetchWord n w).i = s.i := rfl
@[simp] theorem State.withFetchWord_t0 (s : State) (n w : Nat) : (s.withFetchWord n w).t0 = s.t0 := rfl
@[simp] theorem State.withFetchWord_raw (s : State) (n w : Nat) : (s.withFetchWord n w).raw = s.raw := rfl
@[simp] theorem State.withFetchWord_p1 (s : State) (n w : Nat) : (s.withFetchWord n w).p1 = s.p1 := rfl
@[simp] theorem State.withFetchWord_p2 (s : State) (n w : Nat) : (s.withFetchWord n w).p2 = s.p2 := rfl
@[simp] theorem State.withFetchWord_binLo (s : State) (n w : Nat) : (s.withFetchWord n w).binLo = s.binLo := rfl
@[simp] theorem State.withFetchWord_binHi (s : State) (n w : Nat) : (s.withFetchWord n w).binHi = s.binHi := rfl
@[simp] theorem State.withFetchWord_duty (s : State) (n w : Nat) : (s.withFetchWord n w).duty = s.duty := rfl
@[simp] theorem State.withFetchWord_lastMs (s : State) (n w : Nat) : (s.withFetchWord n w).lastMs = s.lastMs := rfl
@[simp] theorem State.withFetchWord_ema (s : State) (n w : Nat) : (s.withFetchWord n w).ema = s.ema := rfl
@[simp] theorem State.withFetchWord_gain (s : State) (n w : Nat) : (s.withFetchWord n w).gain = s.gain := rfl
@[simp] theorem State.withFetchWord_e (s : State) (n w : Nat) : (s.withFetchWord n w).e = s.e := rfl
@[simp] theorem State.withFetchWord_level (s : State) (n w : Nat) : (s.withFetchWord n w).level = s.level := rfl
@[simp] theorem State.withFetchWord_vReal (s : State) (n w : Nat) : (s.withFetchWord n w).vReal = s.vReal := rfl
@[simp] theorem State.withFetchWord_vImag (s : State) (n w : Nat) : (s.withFetchWord n w).vImag = s.vImag := rfl
@[simp] theorem State.withFetchWord_hann (s : State) (n w : Nat) : (s.withFetchWord n w).hann = s.hann := rfl
@[simp] theorem State.withFetchWord_twRe (s : State) (n w : Nat) : (s.withFetchWord n w).twRe = s.twRe := rfl
@[simp] theorem State.withFetchWord_twIm (s : State) (n w : Nat) : (s.withFetchWord n w).twIm = s.twIm := rfl
@[simp] theorem State.withFetchWord_tcfg (s : State) (n w : Nat) : (s.withFetchWord n w).tcfg = s.tcfg := rfl
@[simp] theorem State.withFetchWord_ocr (s : State) (n w : Nat) : (s.withFetchWord n w).ocr = s.ocr := rfl
@[simp] theorem State.withFetchWord_timer (s : State) (n w : Nat) : (s.withFetchWord n w).timer = s.timer := rfl
@[simp] theorem State.withFetchWord_adcch (s : State) (n w : Nat) : (s.withFetchWord n w).adcch = s.adcch := rfl
@[simp] theorem State.withFetchWord_inFlight (s : State) (n w : Nat) :
    (s.withFetchWord n w).inFlight =
      s.inFlight := rfl
@[simp] theorem State.withFetchWord_serEn (s : State) (n w : Nat) : (s.withFetchWord n w).serEn = s.serEn := rfl
@[simp] theorem State.withFetchWord_txq (s : State) (n w : Nat) : (s.withFetchWord n w).txq = s.txq := rfl
@[simp] theorem State.withFetchWord_seen (s : State) (n w : Nat) : (s.withFetchWord n w).seen = s.seen := rfl
@[simp] theorem State.withFetchWord_env (s : State) (n w : Nat) : (s.withFetchWord n w).env = s.env := rfl

/-! resetWith -/

@[simp] theorem State.resetWith_params (p : Config.Params) (v : Env) : (State.resetWith p v).params = p := rfl
@[simp] theorem State.resetWith_stage (p : Config.Params) (v : Env) : (State.resetWith p v).stage = 0 := rfl
@[simp] theorem State.resetWith_i (p : Config.Params) (v : Env) : (State.resetWith p v).i = 0 := rfl
@[simp] theorem State.resetWith_t0 (p : Config.Params) (v : Env) : (State.resetWith p v).t0 = 0 := rfl
@[simp] theorem State.resetWith_raw (p : Config.Params) (v : Env) : (State.resetWith p v).raw = 0 := rfl
@[simp] theorem State.resetWith_p1 (p : Config.Params) (v : Env) : (State.resetWith p v).p1 = 0 := rfl
@[simp] theorem State.resetWith_p2 (p : Config.Params) (v : Env) : (State.resetWith p v).p2 = 0 := rfl
@[simp] theorem State.resetWith_binLo (p : Config.Params) (v : Env) : (State.resetWith p v).binLo = 1 := rfl
@[simp] theorem State.resetWith_binHi (p : Config.Params) (v : Env) : (State.resetWith p v).binHi = 2 := rfl
@[simp] theorem State.resetWith_duty (p : Config.Params) (v : Env) : (State.resetWith p v).duty = 0 := rfl
@[simp] theorem State.resetWith_lastMs (p : Config.Params) (v : Env) : (State.resetWith p v).lastMs = 0 := rfl
@[simp] theorem State.resetWith_ema (p : Config.Params) (v : Env) : (State.resetWith p v).ema = F64.zero := rfl
@[simp] theorem State.resetWith_gain (p : Config.Params) (v : Env) : (State.resetWith p v).gain = F64.one := rfl
@[simp] theorem State.resetWith_e (p : Config.Params) (v : Env) : (State.resetWith p v).e = F64.zero := rfl
@[simp] theorem State.resetWith_level (p : Config.Params) (v : Env) : (State.resetWith p v).level = F64.zero := rfl
@[simp] theorem State.resetWith_vReal (p : Config.Params) (v : Env) : (State.resetWith p v).vReal = List.replicate p.frame.len F64.zero := rfl
@[simp] theorem State.resetWith_vImag (p : Config.Params) (v : Env) : (State.resetWith p v).vImag = List.replicate p.frame.len F64.zero := rfl
@[simp] theorem State.resetWith_hann (p : Config.Params) (v : Env) : (State.resetWith p v).hann = List.replicate p.frame.len F64.zero := rfl
@[simp] theorem State.resetWith_twRe (p : Config.Params) (v : Env) : (State.resetWith p v).twRe = twiddleRe num p.frame.len := rfl
@[simp] theorem State.resetWith_twIm (p : Config.Params) (v : Env) : (State.resetWith p v).twIm = twiddleIm num p.frame.len := rfl
@[simp] theorem State.resetWith_tcfg (p : Config.Params) (v : Env) : (State.resetWith p v).tcfg = 0 := rfl
@[simp] theorem State.resetWith_ocr (p : Config.Params) (v : Env) : (State.resetWith p v).ocr = 0 := rfl
@[simp] theorem State.resetWith_timer (p : Config.Params) (v : Env) : (State.resetWith p v).timer = { ocrAct := 0, cnt := 0, dir := .up } := rfl
@[simp] theorem State.resetWith_adcch (p : Config.Params) (v : Env) : (State.resetWith p v).adcch = 0 := rfl
@[simp] theorem State.resetWith_inFlight (p : Config.Params) (v : Env) : (State.resetWith p v).inFlight = none := rfl
@[simp] theorem State.resetWith_serEn (p : Config.Params) (v : Env) : (State.resetWith p v).serEn = false := rfl
@[simp] theorem State.resetWith_txq (p : Config.Params) (v : Env) : (State.resetWith p v).txq = [] := rfl
@[simp] theorem State.resetWith_seen (p : Config.Params) (v : Env) : (State.resetWith p v).seen = { duties := [], conversions := [] } := rfl
@[simp] theorem State.resetWith_env (p : Config.Params) (v : Env) : (State.resetWith p v).env = v := rfl

/-! The environment's sub-structures -/

@[simp] theorem Feed.rest_script {α : Type} (f : Feed α) : f.rest.script = f.script.tail := rfl
@[simp] theorem Feed.rest_given {α : Type} (f : Feed α) : f.rest.given = f.given + 1 := rfl
@[simp] theorem UsClock.read_feed (c : UsClock) : c.read.feed = c.feed.rest := rfl
@[simp] theorem MsClock.read_feed (c : MsClock) : c.read.feed = c.feed.rest := rfl
@[simp] theorem State.applyReset_eq (s : State) : s.applyReset = State.resetWith s.params s.env := rfl
@[simp] theorem State.len_eq (s : State) : s.len = s.params.frame.len := rfl

end Sys2Proof.Machine
end

