-- ==== Sys2Proof/Laws/Ops.lean ====
section
/-! SUPPORT. What each shared operation and the step can do, said once. -/

namespace Sys2Proof.Machine

/-! The environment's answers -/

@[simp] theorem Feed.after_zero {α : Type} (f : Feed α) : f.after 0 = f := rfl

theorem Feed.after_succ {α : Type} (f : Feed α) (k : Nat) : f.after (k + 1) = (f.after k).rest := by
  simp [Feed.after, Feed.rest, Nat.add_assoc]

theorem Feed.rest_after {α : Type} (f : Feed α) (k : Nat) : f.rest.after k = f.after (k + 1) := by
  simp [Feed.after, Feed.rest, Nat.add_assoc, Nat.add_comm 1 k]

theorem Feed.value_after {α : Type} (free : Nat → α) (f : Feed α) (k : Nat) :
    (f.after k).value free = f.answer free k := rfl

@[simp] theorem Feed.answer_zero {α : Type} (free : Nat → α) (f : Feed α) :
    f.answer free 0 = f.value free := rfl

theorem Feed.answer_rest {α : Type} (free : Nat → α) (f : Feed α) (k : Nat) :
    f.rest.answer free k = f.answer free (k + 1) := by
  simp [Feed.answer, Feed.rest, Nat.add_assoc, Nat.add_comm 1 k]

/-! The spin-wait -/

/-- A wait's last reading is at the deadline or past it by at most 2^31 − 2 (60_exceptions.md R270 (c)). -/
theorem landing_past (d : BitVec 32) (a : BitVec 31) : (landing d a - d).toNat ≤ 2 ^ 31 - 2 := by
  have ha := a.isLt
  have h : landing d a - d = BitVec.ofNat 32 (a.toNat - 1) := by unfold landing; simp
  rw [h, BitVec.toNat_ofNat]
  omega

theorem landing_reached (d : BitVec 32) (a : BitVec 31) : deadlineReached (landing d a) d = true := by
  have h := landing_past d a
  unfold deadlineReached sdiff32
  rw [decide_eq_true_eq, BitVec.toInt_eq_toNat_cond]
  split <;> omega

/-! The step -/

theorem channelLegal_iff (c : BitVec 2) : channelLegal c = true ↔ c ≠ 3 := by simp [channelLegal]

theorem reservedValue_eq_none {s : State} :
    s.reservedValue = none ↔ s.adcch ≠ 3 ∧ tcfgLegal s.tcfg = true := by
  unfold State.reservedValue
  rw [← channelLegal_iff]
  split <;> rename_i hc <;> simp [hc]

theorem reservedValue_channel {s : State} (h : s.adcch = 3) : s.reservedValue = some .reservedChannel := by
  simp [State.reservedValue, channelLegal, h]

theorem reservedValue_timer {s : State} (h : s.adcch ≠ 3) (ht : tcfgLegal s.tcfg = false) :
    s.reservedValue = some .reservedTimerConfig := by
  have hc : channelLegal s.adcch = true := (channelLegal_iff _).2 h
  simp [State.reservedValue, hc, ht]

theorem sequencerStep_of_decode {s : State} {i : Instr} (h : decode s.stage = .ok i)
    (hv : s.reservedValue = none) : sequencerStep s = runOperation i s := by
  simp [sequencerStep, h, hv]

theorem sequencerStep_of_reserved {s : State} {i : Instr} {r : Refusal} (h : decode s.stage = .ok i)
    (hv : s.reservedValue = some r) : sequencerStep s = .refused r := by
  simp [sequencerStep, h, hv]

theorem sequencerStep_of_error {s : State} {e : DecodeError} (h : decode s.stage = .error e) :
    sequencerStep s = .refused (.reservedStage s.stage) := by
  simp [sequencerStep, h]

theorem runOperation_next {i : Instr} {s u : State} :
    runOperation i s = .next u ↔ ∃ t, exec i s = .next t ∧ u = t.runTimer.dropReset := by
  unfold runOperation
  cases exec i s with
  | next t => simp [afterOperation, eq_comm]
  | fault r => exact nomatch r
  | refused r => simp

/-- All a step can do: a reset, or an operation followed by the timer agent's turn. -/
theorem step_next_cases {s u : State} (h : step s = .next u) :
    (s.resetAsserted = true ∧ u = s.applyReset.dropReset) ∨
    (s.resetAsserted = false ∧ s.adcch ≠ 3 ∧ tcfgLegal s.tcfg = true ∧
      ∃ i t, decode s.stage = .ok i ∧ exec i s = .next t ∧ u = t.runTimer.dropReset) := by
  unfold step at h
  split at h
  · rename_i hr
    injection h with h
    exact .inl ⟨hr, h.symm⟩
  · rename_i hr
    have hr' : s.resetAsserted = false := by simpa using hr
    refine .inr ⟨hr', ?_⟩
    cases hd : decode s.stage with
    | error e => rw [sequencerStep_of_error hd] at h; cases h
    | ok i =>
      cases hv : s.reservedValue with
      | some r => rw [sequencerStep_of_reserved hd hv] at h; cases h
      | none =>
        rw [sequencerStep_of_decode hd hv] at h
        obtain ⟨hc, ht⟩ := reservedValue_eq_none.1 hv
        obtain ⟨t, hx⟩ := runOperation_next.1 h
        exact ⟨hc, ht, i, t, rfl, hx⟩

theorem step_of_decode {s : State} {i : Instr} (hr : s.resetAsserted = false) (h : decode s.stage = .ok i)
    (hv : s.reservedValue = none) : step s = runOperation i s := by
  rw [← sequencerStep_of_decode h hv]; simp [step, hr]

/-! The operations: what each answers where it answers a next state -/

@[simp] theorem exec_pwminit (s : State) :
    exec .pwminit s = .next { s with ocr := 0, tcfg := 0b0011, stage := 1 } := rfl

@[simp] theorem exec_wininit (s : State) :
    exec .wininit s = .next { s with hann := hannTable num s.len, stage := 2 } := rfl

theorem exec_banner (s : State) :
    exec .banner s =
      .next (if s.params.traceEn then
        { s with serEn := true, txq := s.txq ++ bannerText s.params, stage := 3 }
        else { s with stage := 3 }) := by
  change execBanner s = _
  unfold execBanner
  split <;> rfl

theorem exec_sample (s : State) (h : s.sampleSized = true) :
    exec .sample s = .next ((s.sampleStart.sampleLoop s.len).advance .sample) := by
  change execSample s = _
  simp [execSample, h]

theorem exec_sample_next {s t : State} (h : exec .sample s = .next t) :
    s.sampleSized = true ∧ t = (s.sampleStart.sampleLoop s.len).advance .sample := by
  change execSample s = _ at h
  unfold execSample at h
  split at h
  · rename_i hs; injection h with h; exact ⟨hs, h.symm⟩
  · cases h

theorem exec_fft (s : State) (h : s.fftSized = true) :
    exec .fft s = .next { s with vReal := s.transformed.re, vImag := s.transformed.im, stage := 5 } := by
  change execFft s = _
  simp only [execFft, h]; rfl

theorem exec_fft_next {s t : State} (h : exec .fft s = .next t) :
    s.fftSized = true ∧ t = { s with vReal := s.transformed.re, vImag := s.transformed.im, stage := 5 } := by
  change execFft s = _ at h
  unfold execFft at h
  split at h
  · rename_i hs; injection h with h; exact ⟨hs, h.symm⟩
  · cases h

@[simp] theorem exec_bandsel (s : State) :
    exec .bandsel s = .next (s.readPot1.readPot2.setBand.advance .bandsel) := rfl

theorem exec_energy (s : State) (h : s.energySized = true) :
    exec .energy s =
      .next { s with e := bandEnergy num s.vReal s.binLo.toNat s.binHi.toNat, stage := 7 } := by
  change execEnergy s = _
  simp only [execEnergy, h]; rfl

theorem exec_energy_next {s t : State} (h : exec .energy s = .next t) :
    s.energySized = true ∧
      t = { s with e := bandEnergy num s.vReal s.binLo.toNat s.binHi.toNat, stage := 7 } := by
  change execEnergy s = _ at h
  unfold execEnergy at h
  split at h
  · rename_i hs; injection h with h; exact ⟨hs, h.symm⟩
  · cases h

theorem exec_agc_next {s t : State} (h : exec .agc s = .next t) :
    ∃ c, agcUpdate num s.ema s.gain s.e = some c ∧
      t = { s with ema := c.ema, gain := c.gain, level := c.level, stage := 8 } := by
  change execAgc s = _ at h
  unfold execAgc at h
  split at h
  · rename_i c hc; injection h with h; exact ⟨c, hc, h.symm⟩
  · cases h

/-- AGC refuses exactly where one of its limits is given a number that is not finite. -/
theorem exec_agc_refused {s : State} (h : agcUpdate num s.ema s.gain s.e = none) :
    exec .agc s = .refused .notFinite := by
  change execAgc s = _
  unfold execAgc
  rw [h]

theorem exec_render_next {s t : State} (h : exec .render s = .next t) :
    ∃ d, dutyOfLevel num s.level = some d ∧ t = { s with duty := BitVec.ofInt 8 d, stage := 9 } := by
  change execRender s = _ at h
  unfold execRender at h
  split at h
  · rename_i d hd; injection h with h; exact ⟨d, hd, h.symm⟩
  · cases h

@[simp] theorem exec_pwmwr (s : State) :
    exec .pwmwr s = .next { s with
      ocr := s.duty.setWidth 16
      seen := { s.seen with duties := s.seen.duties ++ [s.duty] }
      stage := 10 } := rfl

/-- TRACE changes nothing but the millisecond clock, `LAST_MS`, `TXQ` and `STAGE`. -/
theorem exec_trace_next {s t : State} (h : exec .trace s = .next t) :
    (s.params.traceEn = false ∧ t = s.advance .trace) ∨
    (s.params.traceEn = true ∧ ∃ line,
      (s.statusLine = some line ∨
        (s.statusLine = none ∧ traceDue s.env.ms.read.now s.lastMs = false ∧ line = [])) ∧
      t = (s.traceAt s.env.ms.read line).advance .trace) := by
  change execTrace s = _ at h
  unfold execTrace at h
  split at h
  · rename_i he
    refine .inr ⟨he, ?_⟩
    split at h
    · rename_i line hl
      injection h with h
      exact ⟨line, .inl hl, h.symm⟩
    · rename_i hl
      split at h
      · cases h
      · rename_i hd
        injection h with h
        exact ⟨[], .inr ⟨hl, by simpa using hd, rfl⟩, h.symm⟩
  · rename_i he
    injection h with h
    exact .inl ⟨by simpa using he, h.symm⟩

/-- No operation changes the build, the ROM, the timer's position or the level of `rst`. -/
theorem sampleLoop_frame (k : Nat) (s : State) :
    (s.sampleLoop k).params = s.params ∧ (s.sampleLoop k).hann = s.hann ∧ (s.sampleLoop k).twRe = s.twRe ∧
      (s.sampleLoop k).twIm = s.twIm ∧ (s.sampleLoop k).tcfg = s.tcfg ∧ (s.sampleLoop k).ocr = s.ocr ∧
      (s.sampleLoop k).timer = s.timer ∧ (s.sampleLoop k).t0 = s.t0 ∧
      (s.sampleLoop k).vReal.length = s.vReal.length ∧ (s.sampleLoop k).vImag.length = s.vImag.length ∧
      (s.sampleLoop k).env.rst = s.env.rst ∧ (s.sampleLoop k).env.ms = s.env.ms ∧
      (s.sampleLoop k).env.ticks = s.env.ticks ∧ (s.sampleLoop k).env.adc = s.env.adc.after k := by
  induction k generalizing s with
  | zero => simp [State.sampleLoop]
  | succ k ih => simp [State.sampleLoop, ih, State.sampleOne, Feed.rest_after]

/-- The clock after `k` trips round the sampler's loop: one wait per sample, in the order of the samples. -/
theorem sampleLoop_clock (k : Nat) (s : State) (h : s.i.toNat + k < 512) :
    (s.sampleLoop k).env.us =
      (List.range' s.i.toNat k).foldl (fun c i => c.waitUntil (sampleDeadline s.t0 i)) s.env.us := by
  induction k generalizing s with
  | zero => rfl
  | succ k ih =>
    have hi : s.sampleOne.i.toNat = s.i.toNat + 1 := by
      simp only [State.sampleOne, State.sampleStore_i, State.sampleWait_i, BitVec.toNat_add,
        show (1 : BitVec 9).toNat = 1 from rfl]
      omega
    have hu : s.sampleOne.env.us = s.env.us.waitUntil (sampleDeadline s.t0 s.i.toNat) := by
      simp [State.sampleOne]
    have ht : s.sampleOne.t0 = s.t0 := by simp [State.sampleOne]
    rw [State.sampleLoop, ih _ (by omega), hi, ht, hu, List.range'_succ, List.foldl_cons]

/-! The record of binary64 arithmetic, field by field -/

@[simp] theorem num_add : num.add = F64.add := rfl
@[simp] theorem num_sub : num.sub = F64.sub := rfl
@[simp] theorem num_mul : num.mul = F64.mul := rfl
@[simp] theorem num_div : num.div = F64.div := rfl
@[simp] theorem num_neg : num.neg = F64.neg := rfl
@[simp] theorem num_sqrt : num.sqrt = F64.sqrt := rfl
@[simp] theorem num_cos : num.cos = Trig.cos := by simp only [num]
@[simp] theorem num_sin : num.sin = Trig.sin := rfl
@[simp] theorem num_ofInt : num.ofInt = F64.ofInt := rfl
@[simp] theorem num_ofRatio : num.ofRatio = F64.ofRatio := rfl
@[simp] theorem num_pi : num.pi = F64.pi := rfl
@[simp] theorem num_floor : num.floor = F64.floor := rfl
@[simp] theorem num_lt : num.lt = F64.lt := rfl
@[simp] theorem num_finite : num.finite = F64.isFinite := rfl

/-! The helper functions -/

/-- `clamp` refuses exactly a number that is not finite (60_exceptions.md R262 (c)). -/
theorem Numeric.clamp_eq_none {x lo hi : NumWord} :
    Numeric.clamp num x lo hi = none ↔ F64.isFinite x = false := by
  cases h : F64.isFinite x <;> simp [Numeric.clamp, num, h]

/-- `min` refuses exactly where one of its operands is not finite (60_exceptions.md R262 (c)). -/
theorem Numeric.min_eq_none {a b : NumWord} :
    Numeric.min num a b = none ↔ F64.isFinite a = false ∨ F64.isFinite b = false := by
  cases ha : F64.isFinite a <;> cases hb : F64.isFinite b <;> simp [Numeric.min, num, ha, hb]

theorem Numeric.clamp_num {x lo hi r : NumWord} (h : Numeric.clamp num x lo hi = some r) :
    F64.isFinite x = true ∧
      r = if F64.val x < F64.val lo then lo else if F64.val hi < F64.val x then hi else x := by
  unfold Numeric.clamp at h
  split at h
  · rename_i hf
    injection h with h
    refine ⟨hf, ?_⟩
    rw [← h]
    simp [num, F64.lt]
  · cases h

/-- A clamped number lies between its limits (00_scope.md R16 (f)). -/
theorem Numeric.clamp_within {x lo hi r : NumWord} (h : Numeric.clamp num x lo hi = some r)
    (hl : F64.isFinite lo = true) (hh : F64.isFinite hi = true) (hlh : F64.val lo ≤ F64.val hi) :
    F64.within lo hi r := by
  obtain ⟨hf, rfl⟩ := Numeric.clamp_num h
  unfold F64.within
  split
  · exact ⟨hl, le_refl _, hlh⟩
  · split
    · exact ⟨hh, hlh, le_refl _⟩
    · exact ⟨hf, by omega, by omega⟩

theorem Numeric.clamp_isSome {x : NumWord} (lo hi : NumWord) (h : F64.isFinite x = true) :
    ∃ r, Numeric.clamp num x lo hi = some r := by
  simp [Numeric.clamp, num, h]

theorem Numeric.bitrev_lt (L i : Nat) : Numeric.bitrev L i < 2 ^ L := by
  induction L generalizing i with
  | zero => simp [Numeric.bitrev]
  | succ k ih =>
    have := ih (i / 2)
    have hb : i % 2 = 0 ∨ i % 2 = 1 := by omega
    rw [Numeric.bitrev, pow_succ]
    rcases hb with h | h <;> rw [h] <;> omega

/-! The PWM timer -/

/-- One timer clock moves the position by one, modulo the period. -/
theorem Timer.tick_position (ocr : BitVec 16) (t : Timer) (h : t.dir = .down → t.cnt ≠ 255) :
    (t.tick ocr).position = (t.position + 1) % Config.pwmPeriod := by
  obtain ⟨a, c, d⟩ := t
  have hc := c.isLt
  cases d with
  | up =>
    by_cases h255 : c = 255
    · subst h255
      simp [Timer.tick, Timer.position, Config.pwmPeriod]
    · have hne : c.toNat ≠ 255 := fun e => h255 (BitVec.eq_of_toNat_eq e)
      simp only [Timer.tick, h255, if_false, Timer.position, Config.pwmPeriod, BitVec.toNat_add,
        show (1 : BitVec 8).toNat = 1 from rfl]
      omega
  | down =>
    have h255 : c ≠ 255 := h rfl
    have hne' : c.toNat ≠ 255 := fun e => h255 (BitVec.eq_of_toNat_eq e)
    by_cases h0 : c = 0
    · subst h0
      simp [Timer.tick, Timer.position, Config.pwmPeriod]
    · have hne : c.toNat ≠ 0 := fun e => h0 (BitVec.eq_of_toNat_eq e)
      simp only [Timer.tick, h0, if_false, Timer.position, Config.pwmPeriod, BitVec.toNat_sub,
        show (1 : BitVec 8).toNat = 1 from rfl]
      omega

end Sys2Proof.Machine
end

