-- ==== Sys2Proof/Laws/PerInstr.lean ====
section
/-! SUPPORT. What holds of every operation as syntax, one lemma per constructor. -/

open Sys2Proof Sys2Proof.Machine

/-- The operation's code is read back by the table decoder, the operation is well formed, and the
next-stage function gives the code of the operation that follows it (30_encoding.md R80, R81;
40_sequencer.md R101). -/
def Sys2Proof.Laws.Coding.Statement (i : Instr) : Prop :=
  decodeTableWord 8 (encode i).toNat = some i ∧ i.wf = true ∧ nextStage i = encode i.follows

theorem Sys2Proof.Laws.Coding.pwminit : Sys2Proof.Laws.Coding.Statement .pwminit := ⟨rfl, rfl, rfl⟩

theorem Sys2Proof.Laws.Coding.wininit : Sys2Proof.Laws.Coding.Statement .wininit := ⟨rfl, rfl, rfl⟩

theorem Sys2Proof.Laws.Coding.banner : Sys2Proof.Laws.Coding.Statement .banner := ⟨rfl, rfl, rfl⟩

theorem Sys2Proof.Laws.Coding.sample : Sys2Proof.Laws.Coding.Statement .sample := ⟨rfl, rfl, rfl⟩

theorem Sys2Proof.Laws.Coding.fft : Sys2Proof.Laws.Coding.Statement .fft := ⟨rfl, rfl, rfl⟩

theorem Sys2Proof.Laws.Coding.bandsel : Sys2Proof.Laws.Coding.Statement .bandsel := ⟨rfl, rfl, rfl⟩

theorem Sys2Proof.Laws.Coding.energy : Sys2Proof.Laws.Coding.Statement .energy := ⟨rfl, rfl, rfl⟩

theorem Sys2Proof.Laws.Coding.agc : Sys2Proof.Laws.Coding.Statement .agc := ⟨rfl, rfl, rfl⟩

theorem Sys2Proof.Laws.Coding.render : Sys2Proof.Laws.Coding.Statement .render := ⟨rfl, rfl, rfl⟩

theorem Sys2Proof.Laws.Coding.pwmwr : Sys2Proof.Laws.Coding.Statement .pwmwr := ⟨rfl, rfl, rfl⟩

theorem Sys2Proof.Laws.Coding.trace : Sys2Proof.Laws.Coding.Statement .trace := ⟨rfl, rfl, rfl⟩
end

