-- ==== Sys2Proof/Tests/Slice0.lean ====
section
/-! SUPPORT. Tests: words decoded as 30_encoding.md writes them, ill-formed terms refused, vectors of
95_test_vectors.md (each theorem names its vector), and for every statement with hypotheses a witness that
meets them. -/

namespace Sys2Proof.Tests

open Sys2Proof Sys2Proof.Machine

/-! Helpers -/

/-- An environment that answers the ADC conversions and the reads of the millisecond clock from lists. -/
def envOf (adc : List (BitVec 10)) (ms : List (BitVec 32)) : Env where
  us := { now := 1000, feed := { script := [0, 5], given := 0 } }
  ms := { now := 0, feed := { script := ms, given := 0 } }
  adc := { script := adc, given := 0 }
  ticks := { script := [3], given := 0 }
  rst := []

/-- The reset state of the standard build in a scripted environment. -/
def small (adc : List (BitVec 10)) (ms : List (BitVec 32)) : State :=
  State.resetWith Config.standardBuild (envOf adc ms)

/-- The same for `N` = 256. -/
def small256 (adc : List (BitVec 10)) : State :=
  State.resetWith { frame := .n256, traceEn := true, eol := .crlf } (envOf adc [])

/-- The outcome is a next state of which the test holds. -/
def nextIs (o : Host.Outcome State Fault Refusal) (p : State → Bool) : Bool :=
  match o with
  | .next t => p t
  | _ => false

/-- The outcome is the refusal named. -/
def refusedIs (o : Host.Outcome State Fault Refusal) (r : Refusal) : Bool :=
  match o with
  | .refused q => decide (q = r)
  | _ => false

theorem nextIs_true {o : Host.Outcome State Fault Refusal} {p : State → Bool} (h : nextIs o p = true) :
    ∃ t, o = .next t ∧ p t = true := by
  cases o with
  | next t => exact ⟨t, rfl, h⟩
  | fault r => cases h
  | refused r => cases h

theorem refusedIs_true {o : Host.Outcome State Fault Refusal} {r : Refusal} (h : refusedIs o r = true) :
    o = .refused r := by
  cases o with
  | next t => cases h
  | fault r => cases h
  | refused q => exact congrArg _ (of_decide_eq_true h)

theorem of_replicate {p : NumWord → Prop} {n : Nat} {v : NumWord} (h : p v) : ∀ x ∈ List.replicate n v, p x :=
  fun _ hx => List.eq_of_mem_replicate hx ▸ h

/-! Decoding: the codes of 30_encoding.md R81, bit by bit -/

theorem test_decode_pwm : decode 0b0000#4 = .ok .pwminit ∧ decode 0b1001#4 = .ok .pwmwr := by decide

theorem test_decode_window : decode 0b0001#4 = .ok .wininit := by decide

theorem test_decode_trace : decode 0b0010#4 = .ok .banner ∧ decode 0b1010#4 = .ok .trace := by decide

theorem test_decode_sample : decode 0b0011#4 = .ok .sample := by decide

theorem test_decode_fft : decode 0b0100#4 = .ok .fft := by decide

theorem test_decode_bandsel : decode 0b0101#4 = .ok .bandsel := by decide

theorem test_decode_energy : decode 0b0110#4 = .ok .energy := by decide

theorem test_decode_agc : decode 0b0111#4 = .ok .agc := by decide

theorem test_decode_render : decode 0b1000#4 = .ok .render := by decide

/-- R83. -/
theorem test_decode_reserved :
    decode 0b1011#4 = .error (.reservedCode 11) ∧ decode 0b1111#4 = .error (.reservedCode 15) ∧
      decodeTableWord 8 0x0B = none := by decide

theorem test_table_word : decodeTableWord 8 0x04 = some .fft ∧ decodeTableWord 8 0x0A = some .trace := by
  decide

/-- The encoding of `RUN 1`, Program P1: 0x01 0x23 0x45 0x67 0x89 0xA-. -/
theorem test_encode_run_one :
    packCodes (encodeSeq (Pseudo.expand (.run 1))) = [0x01, 0x23, 0x45, 0x67, 0x89, 0xA0] := by decide

/-- R84: a line with a comment, a line without an operation, and a lower-case word. -/
theorem test_assemble :
    assemble [['F', 'F', 'T', ' ', ';', ' ', '4'], [';', 'x'], ['A', 'G', 'C']] = some [.fft, .agc] ∧
      assembleLine ['f', 'f', 't'] = none := by decide

/-! Well-formedness: each check refuses an ill-formed term -/

/-- A program begins with PWMINIT (R85). -/
theorem test_wf_refuses_start : programWf [.fft, .bandsel] = false := by decide

/-- A program keeps the order of the next-stage table (R85, R101). -/
theorem test_wf_refuses_order :
    programWf [.pwminit, .banner] = false ∧ programWf [.pwminit, .wininit, .banner, .sample, .sample] = false := by
  decide

theorem test_wf_accepts_frame : programWf (Pseudo.expand (.run 1)) = true := by decide

/-- No operation has a field to check (R80). -/
theorem test_wf_operation : Instr.all.all Instr.wf = true := by decide

/-! Vectors of 95_test_vectors.md -/

/-- V-PWM-1. -/
theorem test_pwminit :
    nextIs (exec .pwminit (small [] [])) (fun t => decide (t.ocr = 0 ∧ t.tcfg = 0b0011#4 ∧ t.stage = 1)) := by
  decide +kernel

/-- V-PWM-2. -/
theorem test_pwmwr :
    nextIs (exec .pwmwr { small [] [] with duty := 89 })
      (fun t => decide (t.ocr = 0x0059#16 ∧ t.stage = 10 ∧ t.timer.ocrAct = 0)) := by decide +kernel

/-- V-PWM-5. -/
theorem test_timer_top :
    Timer.ticks 0x0059 1 ⟨0, 254, .up⟩ = ⟨0, 255, .up⟩ ∧ Timer.ticks 0x0059 2 ⟨0, 254, .up⟩ = ⟨89, 254, .down⟩ ∧
      Timer.ticks 0x0059 3 ⟨0, 254, .up⟩ = ⟨89, 253, .down⟩ := by decide

/-- V-PWM-6. -/
theorem test_timer_bottom :
    Timer.ticks 0 1 ⟨9, 1, .down⟩ = ⟨9, 0, .down⟩ ∧ Timer.ticks 0 2 ⟨9, 1, .down⟩ = ⟨9, 1, .up⟩ ∧
      Timer.ticks 0 3 ⟨9, 1, .down⟩ = ⟨9, 2, .up⟩ := by decide

/-- V-WIN-1: the computed argument of the last coefficient is 6.283185307179586, whose `cos` is 1. -/
theorem test_wininit_ends :
    Numeric.angle num 127 127 = 0x401921FB54442D18 ∧ Trig.cosRef 0x401921FB54442D18 = F64.one ∧
      Trig.cosRef 0 = F64.one := by decide +kernel

/-- V-WIN-2: `hann[64]` of `N` = 128 from the correctly rounded `cos`. -/
theorem test_wininit_middle :
    F64.mul 0x3FE0000000000000 (F64.sub F64.one (Trig.cosRef (Numeric.angle num 64 127))) = 0x3FEFFEBF321E854C := by
  decide +kernel

/-- V-SAMPLE-6, V-SAMPLE-7. -/
theorem test_sample_store :
    windowedSample num 712 0x3FEFFEBF321E854C = 0x4068FF055F27D823 ∧
      windowedSample num 0 0x3FEFFEBF321E854C = 0xC07FFEBF321E854C := by decide +kernel

/-- V-SAMPLE-12, V-SAMPLE-13, and the readings a wait may end with (R270 (c)): from the deadline to
2^31 − 2 past it. -/
theorem test_sample_schedule :
    landing 1000 0 = 1000 ∧ landing 1000 1 = 1000 ∧ landing 1000 0x7FFFFFFF = 1000 + 0x7FFFFFFE ∧
    sampleDeadline 1000 127 = 14208 ∧ sampleDeadline 0xFFFFFF00 3 = 0x00000038 ∧
      deadlineReached 0xFFFFFFF0 0x00000038 = false ∧ deadlineReached 0x00000038 0x00000038 = true ∧
      deadlineReached 0x00000040 0x00000038 = true := by decide

/-- V-FFT-9. -/
theorem test_fft_butterfly :
    butterfly num 0 0xBFF0000000000000 0 1
        ⟨[0x4008000000000000, 0x4000000000000000], [0x3FF0000000000000, 0x4014000000000000]⟩ =
      ⟨[0x4020000000000000, 0xC000000000000000], [0xBFF0000000000000, 0x4008000000000000]⟩ ∧
    magnitude num 0x4008000000000000 0x4010000000000000 = 0x4014000000000000 := by decide +kernel

/-- V-FFT-8 with four points, and a transform of `[1, 2, 3, 4]` with the exact twiddles 1 and −j: the real
parts of the sums of R160 are 10, −2, −2, −2 and the imaginary ones 0, 2, 0, −2. -/
theorem test_fft_four_points :
    Numeric.bitrev 7 1 = 64 ∧ Numeric.bitrev 7 27 = 108 ∧ Numeric.bitrev 8 127 = 254 ∧
    fftStages num 2 ⟨[F64.one, 0], [0, 0xBFF0000000000000]⟩ (bitReverse num 2
        ⟨[F64.one, 0x4000000000000000, 0x4008000000000000, 0x4010000000000000], [0, 0, 0, 0]⟩) =
      ⟨[0x4024000000000000, 0xC000000000000000, 0xC000000000000000, 0xC000000000000000],
        [0, 0x4000000000000000, 0, 0xC000000000000000]⟩ := by decide +kernel

/-- V-BAND-11 for both frame lengths. -/
theorem test_bandsel :
    nextIs (exec .bandsel (small [319, 463] [])) (fun t => decide (t.binLo = 20 ∧ t.binHi = 40 ∧ t.adcch = 2)) ∧
      nextIs (exec .bandsel (small256 [319, 463])) (fun t => decide (t.binLo = 39 ∧ t.binHi = 79)) := by
  decide +kernel

/-- V-BAND-9: the exact floor, where a rounded quotient would give one less. -/
theorem test_bandsel_exact_floor : bandWidth 63 7 279 = 15 ∧ bandWidth 127 33 693 = 63 := by decide

/-- V-ENERGY-1. -/
theorem test_energy :
    bandEnergy num [0, 0, 0, F64.one, 0x4000000000000000, 0x4008000000000000] 3 5 = 0x4012AAAAAAAAAAAB := by
  decide +kernel

/-- V-ENERGY-8. -/
theorem test_energy_rounding :
    bandEnergy num [0, 0, 0, 0, 0, 0x3FB999999999999A, 0x3FC999999999999A, 0x3FD3333333333333] 5 7 =
      0x3FA7E4B17E4B17E5 := by decide +kernel

/-- V-AGC-1 and V-AGC-2, frame 1. -/
theorem test_agc :
    nextIs (exec .agc { small [] [] with e := 0x4024000000000000 }) (fun t => decide
      (t.ema = 0x4000000000000000 ∧ t.gain = 0x3FEFB020C49BA5E3 ∧ t.level = F64.one)) ∧
    nextIs (exec .agc { small [] [] with e := F64.one }) (fun t => decide
      (t.ema = 0x3FC999999999999A ∧ t.gain = 0x3FF009374BC6A7F0 ∧ t.level = 0x3FDCA762CE277358)) := by
  decide +kernel

/-- Where a decaying `EMA` comes to rest (log 32), by hand: in units of 2^−1074, 0.8 × 3 = 2.4 rounds to 2,
0.8 × 2 = 1.6 rounds to 2, and 0.8 × 1 rounds to 1. -/
theorem test_agc_decay_rests :
    smoothed num 3 F64.zero = 2 ∧ smoothed num 2 F64.zero = 2 ∧ smoothed num 1 F64.zero = 1 := by
  decide +kernel

/-- V-RENDER-1: the level at rest, and the two neighbours of √0.5. -/
theorem test_render :
    nextIs (exec .render { small [] [] with level := 0x3FE2EE73DADC9B57 }) (fun t => decide (t.duty = 89)) ∧
      nextIs (exec .render { small [] [] with level := 0x3FE6A09E667F3BCC }) (fun t => decide (t.duty = 127)) ∧
      nextIs (exec .render { small [] [] with level := 0x3FE6A09E667F3BCD }) (fun t => decide (t.duty = 128)) := by
  decide +kernel

/-- V-RENDER-3, and the value just below 0.5 of which 48_renderer.md R221 remarks (log 22): 0.5 added to it
rounds to 1, so `floor(x + 0.5)` as the rule gives it is 1. -/
theorem test_render_edges :
    dutyOfLevel num 0xBFE0000000000000 = some 0 ∧ dutyOfLevel num 0x3FF8000000000000 = some 255 ∧
      Numeric.roundHalfUp num 0x3FDFFFFFFFFFFFFF = some 1 := by decide +kernel

/-- V-TRACE-1. -/
theorem test_banner :
    nextIs (exec .banner (small [] [])) (fun t => decide (t.serEn = true ∧ t.txq =
      [0x4C, 0x69, 0x6E, 0x65, 0x4C, 0x69, 0x67, 0x68, 0x74, 0x2D, 0x31, 0x20, 0x62, 0x6F, 0x6F, 0x74,
        0x0D, 0x0A, 0x46, 0x73, 0x3D, 0x39, 0x36, 0x30, 0x30, 0x0D, 0x0A, 0x4E, 0x3D, 0x31, 0x32, 0x38,
        0x0D, 0x0A])) := by decide +kernel

/-- V-TRACE-3, last row: `bins 62-63 (4650-4725 Hz) level 0.250  agc 1.000  ema 0.063`. -/
theorem test_trace_line :
    (traceLine num Config.standardBuild 62 63 0x3FD0000000000000 F64.one 0x3FB0000000000000).map (List.map BitVec.toNat) =
      some [98, 105, 110, 115, 32, 54, 50, 45, 54, 51, 32, 40, 52, 54, 53, 48, 45, 52, 55, 50, 53, 32, 72, 122, 41,
        32, 108, 101, 118, 101, 108, 32, 48, 46, 50, 53, 48, 32, 32, 97, 103, 99, 32, 49, 46, 48, 48, 48,
        32, 32, 101, 109, 97, 32, 48, 46, 48, 54, 51, 13, 10] := by decide +kernel

/-- V-TRACE-5: a difference of 999 does not emit, one of 1000 does. -/
theorem test_trace_rate :
    nextIs (exec .trace (small [] [999])) (fun t => decide (t.lastMs = 0 ∧ t.txq = [])) ∧
      nextIs (exec .trace (small [] [1000])) (fun t => decide (t.lastMs = 1000 ∧ t.txq.length = 56)) := by
  decide +kernel

/-- V-SEQ-1, V-SEQ-2, and the refusal of `ADCCH` = 3 (U17). -/
theorem test_sequence :
    nextIs (step (small [] [])) (fun t => decide (t.stage = 1 ∧ t.timer.cnt = 3)) ∧
      nextIs (step ((small [] [0]).withFetchWord 8 0x0A)) (fun t => decide (t.stage = 3)) ∧
      refusedIs (step { small [] [] with stage := 11 }) (.reservedStage 11) ∧
      refusedIs (step { small [] [] with adcch := 3 }) .reservedChannel := by decide +kernel

/-! Witnesses: the hypotheses of the statements are met. Each names its statement. -/

/-- Every operation answers a next state from the reset state. -/
theorem witness_all_complete :
    Instr.all.all (fun i => nextIs (exec i (small [] [0])) (fun _ => true)) = true := by decide +kernel

theorem all_complete (i : Instr) : ∃ t, exec i (small [] [0]) = .next t := by
  have h := List.all_eq_true.1 witness_all_complete i (by cases i <;> decide)
  obtain ⟨t, ht, -⟩ := nextIs_true h
  exact ⟨t, ht⟩

theorem witness_StepRunsDecodedOperation_next :
    (small [] []).resetAsserted = false ∧ decode (small [] []).stage = .ok .pwminit ∧
      Instr.pwminit.wf = true ∧ (small [] []).adcch ≠ 3 ∧ tcfgLegal (small [] []).tcfg = true ∧
      ∃ t, exec .pwminit (small [] []) = .next t :=
  ⟨rfl, rfl, rfl, by decide, rfl, _, exec_pwminit _⟩

theorem witness_StepRunsDecodedOperation_reservedConfig :
    let s : State := { small [] [] with stage := 1, tcfg := 0b0100 }
    s.resetAsserted = false ∧ decode s.stage = .ok .wininit ∧ s.adcch ≠ 3 ∧ tcfgLegal s.tcfg = false :=
  ⟨rfl, rfl, by decide, rfl⟩

theorem witness_StepRunsDecodedOperation_reservedChannel :
    let s : State := { small [] [] with stage := 3, adcch := 3 }
    s.resetAsserted = false ∧ decode s.stage = .ok .sample ∧ s.adcch = 3 :=
  ⟨rfl, rfl, rfl⟩

theorem witness_StepRunsDecodedOperation_refused :
    let s : State := { small [] [] with stage := 3, vReal := [] }
    s.resetAsserted = false ∧ decode s.stage = .ok .sample ∧ s.adcch ≠ 3 ∧ tcfgLegal s.tcfg = true ∧
      exec .sample s = .refused .arraySize :=
  ⟨rfl, rfl, by decide, rfl, refusedIs_true (by decide +kernel)⟩

theorem witness_ReservedCodesRefused :
    11 ≤ (11 : BitVec 4).toNat ∧ 11 ≤ (15 : BitVec 4).toNat ∧
      ({ small [] [] with stage := 11 } : State).resetAsserted = false ∧
      11 ≤ ({ small [] [] with stage := 11 } : State).stage.toNat := by decide +kernel

theorem witness_NextStageTable :
    let s := small [] [0]
    (∃ t, exec .pwminit s = .next t) ∧ (∃ t, exec .wininit s = .next t) ∧ (∃ t, exec .banner s = .next t) ∧
    (∃ t, exec .sample s = .next t) ∧ (∃ t, exec .fft s = .next t) ∧ (∃ t, exec .bandsel s = .next t) ∧
    (∃ t, exec .energy s = .next t) ∧ (∃ t, exec .agc s = .next t) ∧ (∃ t, exec .render s = .next t) ∧
    (∃ t, exec .pwmwr s = .next t) ∧ ∃ t, exec .trace s = .next t :=
  ⟨all_complete _, all_complete _, all_complete _, all_complete _, all_complete _, all_complete _,
    all_complete _, all_complete _, all_complete _, all_complete _, all_complete _⟩

theorem witness_DecodeEncodeAgree : Instr.trace.wf = true ∧ decode 0b1010#4 = .ok .trace := ⟨rfl, rfl⟩

theorem witness_SequencePacking :
    [Instr.pwminit, .wininit, .banner][2]? = some .banner ∧ [Instr.pwminit, .wininit][1]? = some .wininit :=
  ⟨rfl, rfl⟩

theorem witness_RunFromResetCompletesFrames :
    (∀ b ∈ (envOf [] []).rst, b = false) ∧
      ∀ b ∈ ({ envOf [] [] with rst := [false, false] } : Env).rst, b = false := by decide

theorem witness_ResetValues :
    0 < Config.FrameLen.n128.half ∧ 63 < Config.FrameLen.n128.half ∧ 127 < Config.FrameLen.n256.half := by decide

theorem witness_ResetAssertedRestoresState :
    ({ small [] [] with
      stage := 7, env := { envOf [] [] with rst := [true, false] } } : State).resetAsserted = true := rfl

theorem witness_TimerTickTransitions :
    (0 : BitVec 8) ≠ 255 ∧ (254 : BitVec 8) ≠ 255 ∧ (1 : BitVec 8) ≠ 0 ∧ (255 : BitVec 8) ≠ 0 ∧
      tcfgEn 0b0000 = false ∧ tcfgEn 0b0010 = false ∧ tcfgEn 0b0011 = true ∧ tcfgMode 0b0011 = true := by decide

theorem witness_TimerPeriodIs510 :
    ((⟨0, 254, .down⟩ : Timer).dir = .down → (⟨0, 254, .down⟩ : Timer).cnt ≠ 255) ∧
      ((⟨0, 255, .up⟩ : Timer).dir = .down → (⟨0, 255, .up⟩ : Timer).cnt ≠ 255) ∧ 0 < 1 ∧ 509 < 510 := by decide

/-- A running timer with a steady compare value. -/
def lit (d : BitVec 8) : State :=
  { small [] [] with tcfg := 0b0011, ocr := d.setWidth 16, timer := ⟨d, 0, .up⟩ }

theorem witness_PwmHighTime :
    (timerRunning (lit 255).tcfg = true ∧ ((lit 255).timer.dir = .down → (lit 255).timer.cnt ≠ 255) ∧
      (lit 255).timer.ocrAct = BitVec.ofNat 8 (lit 255).ocr.toNat) ∧
    (timerRunning (lit 0).tcfg = true ∧ (lit 0).timer.ocrAct = BitVec.ofNat 8 (lit 0).ocr.toNat) ∧
    tcfgEn (small [] []).tcfg = false := by decide +kernel

theorem witness_PinEndPoints :
    tcfgEn (lit 0).tcfg = true ∧ (lit 0).timer.ocrAct = 0 ∧
      ((lit 0).timer.dir = .down → (lit 0).timer.cnt ≠ 255) ∧
      tcfgEn (lit 255).tcfg = true ∧ (lit 255).timer.ocrAct = 255 := by decide +kernel

theorem witness_WininitFillsTable : 0 < (small [] []).len ∧ 127 < (small [] []).len := by decide

theorem witness_WindowInBinary64 :
    0 < Config.FrameLen.n128.len ∧ 127 < Config.FrameLen.n128.len ∧ 255 < Config.FrameLen.n256.len := by decide

theorem witness_HannWindowReal :
    (0 : Nat) < 1 ∧ 62 < 63 ∧ 63 ≤ Config.FrameLen.n128.len / 2 - 1 ∧ 1 ≤ Config.FrameLen.n128.len / 2 - 1 := by
  decide

theorem witness_TrigContract :
    F64.isFinite F64.one = true ∧ F64.isZero F64.zero ∧ F64.isZero F64.negZero ∧
      0 < Config.FrameLen.n128.len ∧ 255 < Config.FrameLen.n256.len ∧ 0 < Config.FrameLen.n128.half ∧
      127 < Config.FrameLen.n256.half ∧
      F64.div (F64.mul (F64.mul 0x4000000000000000 0x400921FB54442D18) (F64.ofInt 255)) (F64.ofInt (256 - 1)) =
        0x401921FB54442D18 := by
  unfold F64.isZero; decide +kernel

theorem witness_SampleAcquiresFrame :
    (small [] []).sampleSized = true ∧ ({ small [] [] with hann := [] } : State).sampleSized = false ∧
      0 < (small [] []).len ∧ 127 < (small [] []).len := by decide +kernel

theorem witness_SpinWaitMeetsDeadline :
    deadlineReached 0x00000010 0xFFFFFFF0 = true ∧ ((0x7FFFFFFF : BitVec 32) - 0).toNat < 2 ^ 31 ∧
      ¬((0x80000000 : BitVec 32) - 0).toNat < 2 ^ 31 ∧
      deadlineReached (envOf [] []).us.read.now 1000 = true ∧
      deadlineReached (envOf [] []).us.read.now 1001 = false := by decide

theorem witness_FftComputesDft :
    (List.replicate 128 (1 : ℝ)).length = Config.FrameLen.n128.len ∧ 0 < Config.FrameLen.n128.len ∧
      127 < Config.FrameLen.n128.len := by
  simp [Config.FrameLen.len]

/-- A frame with unit twiddles. -/
def flat : State := { small [] [] with twRe := List.replicate 64 F64.one, twIm := List.replicate 64 F64.zero }

theorem witness_FftReplacesFrame :
    flat.fftSized = true ∧ ({ flat with vImag := [] } : State).fftSized = false ∧ 0 < flat.len ∧ 127 < flat.len := by
  decide +kernel

theorem witness_BitReversalPermutes :
    ([0, 0, 0, 0] : List NumWord).length = 2 ^ 2 ∧ 0 < 2 ^ 2 ∧ 3 < 2 ^ 2 ∧ 0 < 2 ∧ 1 < 2 := by decide

theorem witness_ButterflyUpdatesTwoWords :
    let f : Complexes NumWord := ⟨[1, 2, 7], [3, 4, 7]⟩
    (0 : Nat) ≠ 1 ∧ f.re[0]? = some 1 ∧ f.im[0]? = some 3 ∧ f.re[1]? = some 2 ∧ f.im[1]? = some 4 ∧
      (2 : Nat) ≠ 0 ∧ (2 : Nat) ≠ 1 := by decide

theorem witness_SilentFrameTransformsToZero :
    flat.fftSized = true ∧ (∀ x ∈ flat.vReal, F64.isZero x) ∧ (∀ x ∈ flat.vImag, F64.isZero x) ∧
      (∀ x ∈ flat.twRe, F64.isFinite x = true) ∧ ∀ x ∈ flat.twIm, F64.isFinite x = true :=
  ⟨by decide +kernel, of_replicate ⟨rfl, by decide +kernel⟩, of_replicate ⟨rfl, by decide +kernel⟩,
    of_replicate rfl, of_replicate rfl⟩

theorem witness_PotBoundaryBands :
    (small [1023, 0] []).adcAnswer 0 = 1023 ∧ (small [1023, 0] []).adcAnswer 1 = 0 ∧
    (small [0, 1023] []).adcAnswer 0 = 0 ∧ (small [0, 1023] []).adcAnswer 1 = 1023 ∧
    (small [0, 0] []).adcAnswer 0 = 0 ∧ (small [0, 0] []).adcAnswer 1 = 0 ∧
    (small [1023, 1023] []).adcAnswer 0 = 1023 ∧ (small [1023, 1023] []).adcAnswer 1 = 1023 ∧
    (small [512, 512] []).adcAnswer 0 = 512 ∧ (small [512, 512] []).adcAnswer 1 = 512 ∧
    (small [1022, 0] []).adcAnswer 0 = 1022 := by decide +kernel

theorem witness_EnergyIsBandMean :
    (small [] []).energySized = true ∧ ({ small [] [] with vReal := [] } : State).energySized = false := by
  decide +kernel

theorem witness_EnergyNonNegative :
    (small [] []).energySized = true ∧ (small [] []).binLo.toNat < (small [] []).binHi.toNat ∧
      (∀ x ∈ (small [] []).vReal, F64.boundedBy 26 x) ∧
      ∀ b, b < 3 → F64.isZero ((small [] []).vReal.getD b F64.zero) :=
  ⟨by decide +kernel, by decide +kernel, of_replicate ⟨rfl, by decide +kernel⟩, by
    unfold F64.isZero; decide +kernel⟩

theorem witness_AgcUpdatesControl :
    F64.within F64.zero F64.pow52 F64.zero ∧ F64.within F64.zero F64.pow52 F64.pow52 ∧
      F64.within 0x3FA999999999999A 0x4069000000000000 F64.one ∧
      F64.within 0x3FA999999999999A 0x4069000000000000 0x3FA999999999999A ∧
      F64.within 0x3FA999999999999A 0x4069000000000000 0x4069000000000000 := by
  unfold F64.within; decide +kernel

theorem witness_AgcKeepsRanges :
    (∃ t, exec .agc (small [] [0]) = .next t) ∧ 0 ≤ F64.val (small [] [0]).ema ∧ 0 ≤ F64.val (small [] [0]).e :=
  ⟨all_complete .agc, by decide +kernel, by decide +kernel⟩

theorem witness_AgcSilence :
    F64.isZero (small [] []).ema ∧ F64.isZero (small [] []).e ∧
      F64.within (agcMin num) (agcMax num) (small [] []).gain ∧ F64.within (agcMin num) (agcMax num) (agcMax num) ∧
      F64.val (small [] []).gain < F64.val (agcMax num) := by
  unfold F64.isZero F64.within; decide +kernel

/-- An infinite energy, which no run reaches. -/
theorem witness_AgcRefusesNonFinite :
    F64.isFinite (F64.mul (smoothed num F64.zero (F64.inf false)) F64.one) = false := by decide +kernel

/-- The greatest finite gain, which rises above the format in silence. -/
theorem witness_AgcRefusesNonFinite_gain :
    measured num (smoothed num F64.zero F64.zero) 0x7FEFFFFFFFFFFFFF = some F64.zero ∧
      F64.isFinite (gainProduct num 0x7FEFFFFFFFFFFFFF F64.zero) = false := by decide +kernel

/-- A negative smoothed energy, whose root is not a number. -/
theorem witness_AgcRefusesNonFinite_root :
    measured num (smoothed num 0xBFF0000000000000 F64.zero) 0x4069000000000000 =
        some (F64.mul (smoothed num 0xBFF0000000000000 F64.zero) 0x4069000000000000) ∧
      adaptedGain num 0x4069000000000000
        (F64.mul (smoothed num 0xBFF0000000000000 F64.zero) 0x4069000000000000) = some 0x4069000000000000 ∧
      F64.isFinite (F64.sqrt (F64.mul (smoothed num 0xBFF0000000000000 F64.zero) 0x4069000000000000)) = false := by
  decide +kernel

theorem witness_AgcRestingPointReal :
    (175 / 100000 : ℝ) ≤ 175 / 100000 ∧ (175 / 100000 : ℝ) ≤ 7 ∧ (7 : ℝ) ≤ 7 := by norm_num

theorem witness_RenderMapsLevel :
    F64.isFinite ({ small [] [] with level := F64.one } : State).level = true ∧
      F64.isFinite ({ small [] [] with level := F64.inf false } : State).level = false := by decide +kernel

theorem witness_RenderMonotone :
    F64.isFinite F64.zero = true ∧ F64.isFinite F64.one = true ∧ F64.val F64.zero ≤ F64.val F64.one := by
  decide +kernel

theorem witness_RenderThresholdsReal : (0 : ℝ) ≤ 0 ∧ (0 : ℝ) ≤ 1 ∧ (1 : ℝ) ≤ 1 := by norm_num

theorem witness_BannerEmitsBootLines :
    (small [] []).params.traceEn = true ∧
      (State.resetWith { frame := .n256, traceEn := false, eol := .lf } (envOf [] [])).params.traceEn = false :=
  ⟨rfl, rfl⟩

/-- The time of TRACE's read of the millisecond clock in a scripted state. -/
def readTime (s : State) : BitVec 32 := s.env.ms.now + s.env.ms.feed.value Config.msAdvance

theorem witness_TraceEmitsWhenDue_printable :
    (small [] [1000]).params.traceEn = true ∧ (small [] [1000]).printable ∧
      1000 ≤ (readTime (small [] [1000]) - (small [] [1000]).lastMs).toNat ∧
      (readTime (small [] [999]) - (small [] [999]).lastMs).toNat < 1000 := by
  unfold State.printable F64.boundedBy; decide +kernel

theorem witness_TraceEmitsWhenDue_refused :
    let s : State := small [] [1000]
    s.params.traceEn = true ∧ 1000 ≤ (readTime s - s.lastMs).toNat ∧
      F64.isFinite ({ s with level := F64.nan } : State).level = false ∧
      F64.isFinite ({ s with gain := F64.inf false } : State).gain = false ∧
      F64.isFinite ({ s with ema := F64.inf true } : State).ema = false := by
  decide +kernel

theorem witness_StatusLineFields :
    (small [] []).printable ∧ 0 ≤ F64.val (small [] []).level ∧ 0 ≤ F64.val (small [] []).gain ∧
      0 ≤ F64.val (small [] []).ema := by
  unfold State.printable F64.boundedBy; decide +kernel

/-- The longest line: `N` = 256, band 126 to 127, gain 200, the greatest smoothed energy. -/
def longest : State :=
  { small256 [] with binLo := 126, binHi := 127, level := F64.one, gain := agcMax num, ema := F64.ofInt 4261478400 }

theorem witness_StatusLineLength :
    longest.binHi.toNat ≤ longest.params.frame.nyq ∧ longest.binLo.toNat ≤ longest.params.frame.nyq ∧
      F64.within F64.zero F64.one longest.level ∧ F64.within (agcMin num) (agcMax num) longest.gain ∧
      F64.within F64.zero (F64.ofInt 4261478400) longest.ema := by
  unfold F64.within; decide +kernel

theorem witness_DecimalText : (9600 : Nat) ≠ 0 ∧ decimal 9600 = [0x39, 0x36, 0x30, 0x30] := by decide

theorem witness_ArithmeticNearestEven :
    F64.isFinite F64.one = true ∧ F64.isFinite (0x4008000000000000 : NumWord) = true ∧
      F64.isFinite (F64.add F64.one 0x4008000000000000) = true ∧
      F64.isFinite (F64.sub F64.one 0x4008000000000000) = true ∧
      F64.isFinite (F64.mul F64.one 0x4008000000000000) = true ∧
      F64.isFinite (F64.div F64.one 0x4008000000000000) = true ∧ F64.toRat 0x4008000000000000 ≠ 0 :=
  ⟨by decide +kernel, by decide +kernel, by decide +kernel, by decide +kernel, by decide +kernel,
    by decide +kernel, by
      have hv : F64.val 0x4008000000000000 ≠ 0 := by decide +kernel
      have hs : F64.scale ≠ 0 := by decide +kernel
      unfold F64.toRat
      exact div_ne_zero (by exact_mod_cast hv) (by exact_mod_cast hs)⟩

theorem witness_SqrtNearest :
    F64.isFinite (0x4000000000000000 : NumWord) = true ∧ 0 ≤ F64.val 0x4000000000000000 ∧
      F64.isFinite F64.negZero = true ∧ 0 ≤ F64.val F64.negZero := by decide +kernel

theorem witness_NumProperties :
    F64.isFinite (F64.mul F64.one F64.one) = true ∧ F64.isFinite (F64.add F64.one F64.one) = true ∧
      0 ≤ F64.val F64.one ∧ F64.isZero F64.zero ∧ F64.isZero F64.negZero ∧ F64.isFinite F64.one = true ∧
      F64.val F64.zero ≤ F64.val F64.one ∧ F64.isFinite (F64.add F64.zero F64.one) = true ∧
      F64.isFinite (F64.mul F64.zero F64.one) = true ∧ (2 ^ 24 : Int).natAbs ≤ 2 ^ 24 ∧
      (-2 ^ 24 : Int).natAbs ≤ 2 ^ 24 := by
  unfold F64.isZero; decide +kernel

theorem witness_RegistersHaveOneWriter : ∀ i : Instr, ∃ t, exec i (small [] [0]) = .next t := all_complete

/-- A state in the middle of a run, about to perform AGC. -/
def running : State :=
  { small [] [] with
    stage := 7, i := 128, binLo := 20, binHi := 40, tcfg := 0b0011, ocr := 0x59, timer := ⟨89, 12, .down⟩
    ema := F64.one, e := 0x4024000000000000, level := 0x3FE2EE73DADC9B57, duty := 89, adcch := 2
    vReal := List.replicate 128 0x4024000000000000, txq := [0x0D, 0x0A] }

theorem witness_Inv_running : running.Inv where
  stage_legal := by decide
  index_range := by decide
  vReal_length := by decide +kernel
  vImag_length := by decide +kernel
  hann_length := by decide +kernel
  rom_re := rfl
  rom_im := rfl
  window_range := of_replicate (by unfold F64.within; decide +kernel)
  band_low := by decide
  band_order := by decide
  band_high := by decide
  ema_range := by unfold F64.within; decide +kernel
  gain_range := by unfold F64.within; decide +kernel
  level_range := by unfold F64.within; decide +kernel
  energy_range := by unfold F64.within; decide +kernel
  frame_real := of_replicate (by unfold F64.boundedBy; decide +kernel)
  frame_imag := fun _ => of_replicate ⟨rfl, by decide +kernel⟩
  config_legal := by decide
  ocr_high := by decide
  timer_turn := by decide
  channel_legal := by decide
  adc_idle := rfl
  text_ascii := by decide

theorem witness_InvKeptByStep : running.Inv ∧ ∃ t, step running = .next t :=
  ⟨witness_Inv_running, by
    have h : nextIs (step running) (fun t => decide (t.stage = 8)) = true := by decide +kernel
    obtain ⟨t, ht, -⟩ := nextIs_true h
    exact ⟨t, ht⟩⟩

theorem witness_StepNeverStopsUnderInv : running.Inv := witness_Inv_running

/-- One silent frame: every audio conversion 512, the pots anywhere. -/
theorem witness_SilentRunStaysDark :
    (∀ b ∈ (envOf (List.replicate 128 512 ++ [1023, 7]) []).rst, b = false) ∧ 0 < 1 ∧
      ∀ j, j < 1 * (Config.FrameLen.n128.len + 2) →
        j % (Config.FrameLen.n128.len + 2) < Config.FrameLen.n128.len →
        (envOf (List.replicate 128 512 ++ [1023, 7]) []).adc.answer Config.adcAnswer j = 512 := by
  decide +kernel

/-- The same audio, another clock and no trace. -/
def other : State :=
  State.resetWith { frame := .n128, traceEn := false, eol := .lf } { envOf [5] [77] with us := ⟨9, ⟨[], 4⟩⟩ }

theorem witness_DutySequenceDeterminism :
    (small [5] []).DutyAgree other ∧ (∃ t, Host.Core.run core 1 (small [5] []) = .next t) ∧
      (∃ t, Host.Core.run core 1 other = .next t) ∧ other.params.frame = (small [5] []).params.frame ∧
      (envOf [5] []).adc = (envOf [5] [77]).adc ∧ (envOf [5] []).rst = (envOf [5] [77]).rst :=
  ⟨{ frame := rfl, stage := rfl, i := rfl, raw := rfl, p1 := rfl, p2 := rfl, binLo := rfl, binHi := rfl
     duty := rfl, ema := rfl, gain := rfl, e := rfl, level := rfl, vReal := rfl, vImag := rfl, hann := rfl
     twRe := rfl, twIm := rfl, tcfg := rfl, ocr := rfl, duties := rfl, adc := rfl, rst := rfl },
    ⟨_, rfl⟩, ⟨_, rfl⟩, rfl, rfl, rfl⟩

end Sys2Proof.Tests
end

section
/-! PROOF. Every operation of the arithmetic rounds once, to the nearest binary64 number with ties to even
(00_scope.md R6, R9, R16, D3), and what follows from it. -/

namespace Sys2Proof.Machine

/-! Where rounded fields lie: between the midpoints to the two neighbouring magnitudes -/

/-- Fields whose magnitude is a significand times a spacing, as rounding answers them. -/
theorem F64.fieldsMag_spaced {k m : Nat} (hhi : m ≤ 2 ^ 53) (hlo : k ≠ 0 → 2 ^ 52 ≤ m) :
    F64.fieldsMag (k * 2 ^ 52 + m) = m * 2 ^ k := by
  by_cases hk : k = 0
  · subst hk
    simpa using F64.fieldsMag_small hhi
  · exact F64.fieldsMag_normal (hlo hk) hhi

/-- The next magnitude is at least one spacing above. -/
theorem F64.fieldsMag_next {k m : Nat} (hhi : m ≤ 2 ^ 53) (hlo : k ≠ 0 → 2 ^ 52 ≤ m) :
    (m + 1) * 2 ^ k ≤ F64.fieldsMag (k * 2 ^ 52 + m + 1) := by
  by_cases h : m = 2 ^ 53
  · subst h
    rw [show k * 2 ^ 52 + 2 ^ 53 + 1 = (k + 1) * 2 ^ 52 + (2 ^ 52 + 1) by ring,
      F64.fieldsMag_normal (by norm_num) (by norm_num), pow_succ]
    have : 0 < 2 ^ k := by positivity
    omega
  · rw [Nat.add_assoc, F64.fieldsMag_spaced (by omega) fun hk => Nat.le_succ_of_le (hlo hk)]

/-- At the midpoint of two integers the even one is taken. -/
theorem F64.nearestEven_half {n d c : Nat} (hd : 0 < d) (h : 2 * n = (2 * c + 1) * d) :
    F64.nearestEven n d % 2 = 0 := by
  have hn : d * (n / d) + n % d = n := Nat.div_add_mod n d
  have hq : n / d = c := Nat.div_eq_of_lt_le (by linarith) (by linarith)
  rw [hq] at hn
  exact F64.nearestEven_tie n d (by linarith)

/-- Where the quotient lies half a spacing from its rounded significand or from the one below, the
rounding is even. -/
theorem F64.roundFields_even_of_half {n d c : Nat} (hd : 0 < d)
    (h : 2 * n = (2 * c + 1) * (d * 2 ^ F64.binade n d)) : F64.roundFields n d % 2 = 0 := by
  have := F64.nearestEven_half (by positivity) h
  unfold F64.roundFields
  omega

/-- A quotient lies at most at the midpoint above its rounding, and there the rounding is even. -/
theorem F64.roundFields_above {n d w : Nat} (hd : 0 < d) (hw : F64.roundFields n d = w) :
    2 * n ≤ (F64.fieldsMag w + F64.fieldsMag (w + 1)) * d ∧
      (2 * n = (F64.fieldsMag w + F64.fieldsMag (w + 1)) * d → w % 2 = 0) := by
  obtain ⟨hhi, hlo⟩ := F64.significand_range n d
  have hnear := (F64.nearestEven_near n (d * 2 ^ F64.binade n d) (by positivity)).1
  have hnext := F64.fieldsMag_next hhi hlo
  have hmag := F64.fieldsMag_roundFields n d
  have hsum : (2 * F64.nearestEven n (d * 2 ^ F64.binade n d) + 1) * (d * 2 ^ F64.binade n d) ≤
      (F64.fieldsMag w + F64.fieldsMag (w + 1)) * d := by
    rw [← hw, hmag, F64.roundFields]
    calc _ = (F64.nearestEven n (d * 2 ^ F64.binade n d) * 2 ^ F64.binade n d +
          (F64.nearestEven n (d * 2 ^ F64.binade n d) + 1) * 2 ^ F64.binade n d) * d := by ring
      _ ≤ _ := Nat.mul_le_mul_right d (Nat.add_le_add_left hnext _)
  refine ⟨hnear.trans hsum, fun h => ?_⟩
  rw [← hw]
  exact F64.roundFields_even_of_half hd (le_antisymm hnear (h ▸ hsum))

/-- A quotient lies at least at the midpoint below its rounding, and there the rounding is even. -/
theorem F64.roundFields_below {n d v : Nat} (hd : 0 < d) (hw : F64.roundFields n d = v + 1) :
    (F64.fieldsMag v + F64.fieldsMag (v + 1)) * d ≤ 2 * n ∧
      (2 * n = (F64.fieldsMag v + F64.fieldsMag (v + 1)) * d → (v + 1) % 2 = 0) := by
  obtain hge | hlt := le_or_gt (F64.fieldsMag (v + 1) * d) n
  · have hstep := Nat.mul_lt_mul_of_pos_right (F64.fieldsMag_succ v) hd
    rw [Nat.add_mul]
    omega
  · -- the significand was rounded up, so the magnitude below is one spacing below
    have hD : 0 < d * 2 ^ F64.binade n d := by positivity
    obtain ⟨hhi, -⟩ := F64.significand_range n d
    have hnear := (F64.nearestEven_near n _ hD).2
    have hmag := F64.fieldsMag_roundFields n d
    have hup : n / (d * 2 ^ F64.binade n d) < F64.nearestEven n (d * 2 ^ F64.binade n d) := by
      rw [Nat.div_lt_iff_lt_mul hD]
      calc n < F64.fieldsMag (v + 1) * d := hlt
        _ = _ := by rw [← hw, hmag]; ring
    have hlo : F64.binade n d ≠ 0 → 2 ^ 52 ≤ n / (d * 2 ^ F64.binade n d) := fun hk => by
      rw [← Nat.div_div_eq_div_mul, Nat.le_div_iff_mul_le (by positivity)]
      exact (F64.binade_spec n d).2 hk
    obtain ⟨m, hm⟩ : ∃ m, F64.nearestEven n (d * 2 ^ F64.binade n d) = m + 1 :=
      Nat.exists_eq_succ_of_ne_zero (Nat.ne_zero_of_lt hup)
    rw [hm] at hnear hup hhi hmag
    have hv : v = F64.binade n d * 2 ^ 52 + m := by unfold F64.roundFields at hw; omega
    have hmagv : F64.fieldsMag v = m * 2 ^ F64.binade n d := by
      rw [hv]
      exact F64.fieldsMag_spaced (by omega) fun hk => (hlo hk).trans (by omega)
    have hsum : (F64.fieldsMag v + F64.fieldsMag (v + 1)) * d =
        (2 * m + 1) * (d * 2 ^ F64.binade n d) := by rw [← hw, hmag, hmagv]; ring
    rw [hsum]
    refine ⟨by linarith, fun h => ?_⟩
    rw [← hw]
    exact F64.roundFields_even_of_half hd h

/-! Numbers between the midpoints have no nearer magnitude -/

section
variable {K : Type} [Field K] [LinearOrder K] [IsStrictOrderedRing K]

/-- A number between the midpoints from the magnitude of `w` to its two neighbours. -/
def F64.Between (w : Nat) (x : K) : Prop :=
  2 * x ≤ (F64.fieldsMag w : K) + F64.fieldsMag (w + 1) ∧
    ∀ v, v + 1 = w → (F64.fieldsMag v : K) + F64.fieldsMag w ≤ 2 * x

/-- Seen from the rounding, another magnitude lies past the midpoint. -/
theorem F64.Between.midpoint {w v : Nat} {x : K} (h : F64.Between w x) :
    (w < v → 2 * x ≤ (F64.fieldsMag w : K) + F64.fieldsMag v) ∧
      (v < w → (F64.fieldsMag v : K) + F64.fieldsMag w ≤ 2 * x) := by
  obtain ⟨habove, hbelow⟩ := h
  constructor
  · intro hv
    have hmono : (F64.fieldsMag (w + 1) : K) ≤ F64.fieldsMag v := by
      exact_mod_cast F64.fieldsMag_le.2 hv
    linarith
  · intro hv
    have hmono : (F64.fieldsMag v : K) ≤ F64.fieldsMag (w - 1) := by
      exact_mod_cast F64.fieldsMag_le.2 (by omega)
    have := hbelow (w - 1) (by omega)
    linarith

theorem F64.Between.near {w : Nat} {x : K} (h : F64.Between w x) (v : Nat) :
    |(F64.fieldsMag w : K) - x| ≤ |(F64.fieldsMag v : K) - x| := by
  obtain ⟨hup, hdown⟩ := h.midpoint (v := v)
  rcases lt_trichotomy w v with hv | rfl | hv
  · have hlt : (F64.fieldsMag w : K) < F64.fieldsMag v := by exact_mod_cast F64.fieldsMag_strictMono hv
    exact (abs_le.2 ⟨by linarith [hup hv], by linarith⟩).trans (le_abs_self _)
  · exact le_rfl
  · have hlt : (F64.fieldsMag v : K) < F64.fieldsMag w := by exact_mod_cast F64.fieldsMag_strictMono hv
    exact (abs_le.2 ⟨by linarith [hdown hv], by linarith [hdown hv]⟩).trans (neg_le_abs _)

/-- Only at a midpoint is another magnitude equally near. -/
theorem F64.Between.tie {w v : Nat} {x : K} (h : F64.Between w x) (hne : v ≠ w)
    (heq : |(F64.fieldsMag v : K) - x| = |(F64.fieldsMag w : K) - x|) :
    2 * x = (F64.fieldsMag w : K) + F64.fieldsMag (w + 1) ∨
      ∃ u, u + 1 = w ∧ 2 * x = (F64.fieldsMag u : K) + F64.fieldsMag w := by
  have hsum : 2 * x = (F64.fieldsMag w : K) + F64.fieldsMag v := by
    rcases abs_eq_abs.1 heq with h | h
    · have hmag : (F64.fieldsMag v : K) = F64.fieldsMag w := by linarith
      exact absurd (F64.fieldsMag_strictMono.injective (by exact_mod_cast hmag)) hne
    · linarith
  obtain ⟨habove, hbelow⟩ := h
  rcases Nat.lt_or_gt_of_ne hne with hv | hv
  · refine .inr ⟨w - 1, by omega, ?_⟩
    have hmono : (F64.fieldsMag v : K) ≤ F64.fieldsMag (w - 1) := by
      exact_mod_cast F64.fieldsMag_le.2 (by omega)
    have := hbelow (w - 1) (by omega)
    linarith
  · refine .inl ?_
    have hmono : (F64.fieldsMag (w + 1) : K) ≤ F64.fieldsMag v := by
      exact_mod_cast F64.fieldsMag_le.2 hv
    linarith

theorem F64.roundFields_between (n : Nat) {d : Nat} (hd : 0 < d) :
    F64.Between (F64.roundFields n d) ((n : K) / d) := by
  have hd' : (0 : K) < d := by exact_mod_cast hd
  constructor
  · rw [← mul_div_assoc, div_le_iff₀ hd']
    exact_mod_cast (F64.roundFields_above hd rfl).1
  · intro v hv
    rw [← hv, ← mul_div_assoc, le_div_iff₀ hd']
    exact_mod_cast (F64.roundFields_below hd hv.symm).1

/-- The rounding of a quotient to which another magnitude is equally near is even. -/
theorem F64.roundFields_tie {n d v : Nat} (hd : 0 < d) (hne : v ≠ F64.roundFields n d)
    (heq : |(F64.fieldsMag v : K) - (n : K) / d| =
      |(F64.fieldsMag (F64.roundFields n d) : K) - (n : K) / d|) : F64.roundFields n d % 2 = 0 := by
  have hd' : (d : K) ≠ 0 := by exact_mod_cast hd.ne'
  rcases (F64.roundFields_between n hd).tie hne heq with h | ⟨u, hu, h⟩
  · rw [← mul_div_assoc, div_eq_iff hd'] at h
    exact (F64.roundFields_above hd rfl).2 (by exact_mod_cast h)
  · rw [← hu, ← mul_div_assoc, div_eq_iff hd'] at h
    rw [← hu]
    exact (F64.roundFields_below hd hu.symm).2 (by exact_mod_cast h)

/-! Words of either sign -/

@[simp] theorem F64.abs_val (x : NumWord) : |(F64.val x : K)| = F64.mag x := by
  unfold F64.val
  split <;> simp

/-- The distance of a word from a number of its sign is that of the magnitudes. -/
theorem F64.abs_val_sub {r : NumWord} {x : K} (h : 0 ≤ (F64.val r : K) * x) :
    |(F64.val r : K) - x| = |(F64.mag r : K) - (|x|)| := by
  rw [← F64.abs_val]
  rcases mul_nonneg_iff.1 h with ⟨hr, hx⟩ | ⟨hr, hx⟩
  · rw [abs_of_nonneg hr, abs_of_nonneg hx]
  · rw [abs_of_nonpos hr, abs_of_nonpos hx, neg_sub_neg, abs_sub_comm]

/-- Of a number between the midpoints around a word's magnitude no word is nearer. -/
theorem F64.val_near {r : NumWord} {x : K} (hs : 0 ≤ (F64.val r : K) * x)
    (h : F64.Between (r.toNat % 2 ^ 63) |x|) (c : NumWord) :
    |(F64.val r : K) - x| ≤ |(F64.val c : K) - x| :=
  calc |(F64.val r : K) - x| = |(F64.mag r : K) - (|x|)| := F64.abs_val_sub hs
    _ ≤ |(F64.mag c : K) - (|x|)| := by rw [F64.mag_eq, F64.mag_eq]; exact h.near _
    _ ≤ |(F64.val c : K) - x| := by rw [← F64.abs_val]; exact abs_abs_sub_abs_le _ _

/-- A word of another value that is equally near has another magnitude, and it is equally near. -/
theorem F64.mag_tie {r c : NumWord} {x : K} (hs : 0 ≤ (F64.val r : K) * x)
    (h : F64.Between (r.toNat % 2 ^ 63) |x|) (hx : x = 0 → F64.val r = 0) (hne : F64.val c ≠ F64.val r)
    (heq : |(F64.val c : K) - x| = |(F64.val r : K) - x|) :
    F64.mag c ≠ F64.mag r ∧ |(F64.mag c : K) - (|x|)| = |(F64.mag r : K) - (|x|)| := by
  constructor
  · -- otherwise the two are opposite, and equally near only to 0
    intro hmag
    have hopp : F64.val c = -F64.val r := by
      rw [← F64.natAbs_val, ← F64.natAbs_val, Int.natAbs_eq_natAbs_iff] at hmag
      exact hmag.resolve_left hne
    have hr : F64.val r = 0 := by
      rw [hopp, Int.cast_neg] at heq
      rcases abs_eq_abs.1 heq with h | h
      · have : (F64.val r : K) = 0 := by linarith
        exact_mod_cast this
      · exact hx (by linarith)
    omega
  · apply le_antisymm
    · calc |(F64.mag c : K) - (|x|)| ≤ |(F64.val c : K) - x| := by
            rw [← F64.abs_val]; exact abs_abs_sub_abs_le _ _
        _ = |(F64.mag r : K) - (|x|)| := by rw [heq, F64.abs_val_sub hs]
    · rw [F64.mag_eq, F64.mag_eq]
      exact h.near _

end

/-! Rounding a signed quotient -/

@[simp] theorem F64.roundMag_zero (d : Nat) : F64.roundMag 0 d = 0 := by
  simp [F64.roundMag, F64.binade, F64.nearestEven]

/-- The word holds the quotient `z / d`, in units of 2^−1074, rounded once; a zero quotient has either
sign. -/
structure F64.IsRounding (z : Int) (d : Nat) (r : NumWord) : Prop where
  fields : r.toNat % 2 ^ 63 = F64.roundMag z.natAbs d
  neg : F64.isNeg r = true → z ≤ 0
  pos : F64.isNeg r = false → 0 ≤ z

theorem F64.isRounding_round {z : Int} {neg : Bool} (d : Nat) (hneg : neg = true → z ≤ 0)
    (hpos : neg = false → 0 ≤ z) : F64.IsRounding z d (F64.round neg z.natAbs d) where
  fields := F64.fields_pack _ _ (lt_of_le_of_lt (F64.roundMag_top _ _) (by norm_num))
  neg := by rwa [(F64.round_spec neg z.natAbs d).1]
  pos := by rwa [(F64.round_spec neg z.natAbs d).1]

section
variable {z : Int} {d : Nat} {r : NumWord}

theorem F64.IsRounding.mag (h : F64.IsRounding z d r) :
    F64.mag r = F64.fieldsMag (F64.roundMag z.natAbs d) := by
  rw [F64.mag_eq, h.fields]

theorem F64.val_of_mag_zero (h : F64.mag r = 0) : F64.val r = 0 := by
  rw [← Int.natAbs_eq_zero, F64.natAbs_val, h]

/-- A zero quotient rounds to a zero. -/
theorem F64.IsRounding.isZero (h : F64.IsRounding 0 d r) : F64.isZero r := by
  have hfields : r.toNat % 2 ^ 63 = 0 := by simpa using h.fields
  exact ⟨(F64.isFinite_iff r).2 (by omega), by rw [F64.mag_eq, hfields]; rfl⟩

theorem F64.IsRounding.val_of_nonneg (h : F64.IsRounding z d r) (hz : 0 ≤ z) :
    F64.val r = F64.mag r := by
  cases hs : F64.isNeg r with
  | false => simp [F64.val, hs]
  | true =>
    obtain rfl : z = 0 := le_antisymm (h.neg hs) hz
    rw [F64.val_of_mag_zero h.isZero.2, h.isZero.2, Nat.cast_zero]

theorem F64.IsRounding.val_of_nonpos (h : F64.IsRounding z d r) (hz : z ≤ 0) :
    F64.val r = -F64.mag r := by
  cases hs : F64.isNeg r with
  | true => simp [F64.val, hs]
  | false =>
    obtain rfl : z = 0 := le_antisymm hz (h.pos hs)
    rw [F64.val_of_mag_zero h.isZero.2, h.isZero.2, Nat.cast_zero, neg_zero]

theorem F64.IsRounding.nonneg (h : F64.IsRounding z d r) (hz : 0 ≤ z) : 0 ≤ F64.val r := by
  rw [h.val_of_nonneg hz]
  exact Int.natCast_nonneg _

theorem F64.IsRounding.nonpos (h : F64.IsRounding z d r) (hz : z ≤ 0) : F64.val r ≤ 0 := by
  rw [h.val_of_nonpos hz]
  omega

/-- Rounding keeps the order (00_scope.md R16 (e)). -/
theorem F64.IsRounding.mono {z' : Int} {r' : NumWord} (h : F64.IsRounding z d r)
    (h' : F64.IsRounding z' d r') (hd : 0 < d) (hz : z ≤ z') : F64.val r ≤ F64.val r' := by
  have hmag : ∀ {a b : Nat}, a ≤ b → F64.fieldsMag (F64.roundMag a d) ≤ F64.fieldsMag (F64.roundMag b d) :=
    fun hab => F64.fieldsMag_le.2 (F64.roundMag_mono hd hd (Nat.mul_le_mul_right d hab))
  rcases le_total 0 z with h0 | h0
  · rw [h.val_of_nonneg h0, h'.val_of_nonneg (h0.trans hz), h.mag, h'.mag]
    exact_mod_cast hmag (by omega)
  rcases le_total 0 z' with h0' | h0'
  · exact (h.nonpos h0).trans (h'.nonneg h0')
  · rw [h.val_of_nonpos h0, h'.val_of_nonpos h0', h.mag, h'.mag, neg_le_neg_iff]
    exact_mod_cast hmag (by omega)

/-- A quotient whose magnitude is one of the format is rounded to itself. -/
theorem F64.IsRounding.exact {w : Nat} (h : F64.IsRounding z d r) (hd : 0 < d) (hw : w < 2047 * 2 ^ 52)
    (hz : z.natAbs = F64.fieldsMag w * d) : F64.isFinite r = true ∧ F64.val r * d = z := by
  have hround : F64.roundMag z.natAbs d = w := by rw [hz, F64.roundMag_exact w d hd hw.le]
  have hmag : (z.natAbs : Int) = F64.mag r * d := by rw [h.mag, hround, hz, Nat.cast_mul]
  refine ⟨(F64.isFinite_iff r).2 (by rw [h.fields, hround]; exact hw), ?_⟩
  rcases le_total 0 z with h0 | h0
  · rw [h.val_of_nonneg h0, ← hmag, Int.natAbs_of_nonneg h0]
  · rw [h.val_of_nonpos h0, neg_mul, ← hmag, Int.ofNat_natAbs_of_nonpos h0, neg_neg]

end

/-! The rational value of a word -/

section
variable {K : Type} [Field K] [LinearOrder K] [IsStrictOrderedRing K]

theorem F64.scale_cast_pos : (0 : K) < F64.scale := by exact_mod_cast F64.scale_pos

/-- In units of 2^−1074 a word is as far from a number as its rational value is from the number's. -/
theorem F64.abs_cast_toRat_sub (c : NumWord) (y : K) :
    |((F64.toRat c : ℚ) : K) - y| = |(F64.val c : K) - y * F64.scale| / F64.scale := by
  have hs : (0 : K) < F64.scale := F64.scale_cast_pos
  rw [F64.toRat, Rat.cast_div, Rat.cast_intCast, Rat.cast_natCast, ← abs_of_pos hs, ← abs_div,
    abs_of_pos hs, sub_div, mul_div_cancel_right₀ _ hs.ne']

end

theorem F64.abs_toRat_sub (c : NumWord) (q : ℚ) :
    |F64.toRat c - q| = |(F64.val c : ℚ) - q * F64.scale| / F64.scale := by
  rw [← F64.abs_cast_toRat_sub, Rat.cast_id]

theorem F64.toRat_inj {a b : NumWord} : F64.toRat a = F64.toRat b ↔ F64.val a = F64.val b := by
  unfold F64.toRat
  rw [div_left_inj' F64.scale_cast_pos.ne', Int.cast_inj]

theorem F64.toRat_mul_scale (a : NumWord) : F64.toRat a * F64.scale = F64.val a :=
  div_mul_cancel₀ _ F64.scale_cast_pos.ne'

/-- A finite rounding is the nearest binary64 number, ties to even (00_scope.md R6, R9). -/
theorem F64.IsRounding.nearestTo {z : Int} {d : Nat} {r : NumWord} {q : ℚ} (h : F64.IsRounding z d r)
    (hd : 0 < d) (hf : F64.isFinite r = true) (hq : q * F64.scale = z / d) : F64.nearestTo q r := by
  have hs : (0 : ℚ) < F64.scale := F64.scale_cast_pos
  have hfields : r.toNat % 2 ^ 63 = F64.roundFields z.natAbs d := by
    have htop := (F64.isFinite_iff r).1 hf
    have heq := h.fields
    rw [F64.roundMag_eq] at heq
    omega
  have habs : |(z : ℚ) / d| = (z.natAbs : ℚ) / d := by
    rw [abs_div, Nat.abs_cast, Nat.cast_natAbs, Int.cast_abs]
  have hsign : 0 ≤ (F64.val r : ℚ) * (z / d) := by
    rw [← mul_div_assoc]
    have : 0 ≤ F64.val r * z := by
      rcases le_total 0 z with h0 | h0
      · exact mul_nonneg (h.nonneg h0) h0
      · exact mul_nonneg_of_nonpos_of_nonpos (h.nonpos h0) h0
    exact div_nonneg (by exact_mod_cast this) (Nat.cast_nonneg d)
  have hbetween : F64.Between (r.toNat % 2 ^ 63) (|(z : ℚ) / d|) := by
    rw [habs, hfields]
    exact F64.roundFields_between _ hd
  refine ⟨hf, fun c _ => ?_, fun c _ hne heq => ?_⟩
  · rw [F64.abs_toRat_sub, F64.abs_toRat_sub, hq]
    exact div_le_div_of_nonneg_right (F64.val_near hsign hbetween c) hs.le
  · rw [F64.abs_toRat_sub, F64.abs_toRat_sub, hq, div_left_inj' hs.ne'] at heq
    rw [Ne, F64.toRat_inj] at hne
    have hzero : (z : ℚ) / d = 0 → F64.val r = 0 := fun h0 => by
      have hd0 : (d : ℚ) ≠ 0 := by exact_mod_cast hd.ne'
      obtain rfl : z = 0 := by simpa [hd0] using h0
      exact F64.val_of_mag_zero h.isZero.2
    obtain ⟨hmag, hnear⟩ := F64.mag_tie hsign hbetween hzero hne heq
    rw [F64.mag_eq, F64.mag_eq, hfields] at hmag hnear
    rw [habs] at hnear
    have := F64.roundFields_tie hd (fun e => hmag (by rw [e])) hnear
    omega

end Sys2Proof.Machine
end

section
/-! PROOF. What each operation rounds, and the statements on the arithmetic but for the square root
(00_scope.md R6, R7, R9). -/

namespace Sys2Proof.Machine

/-! Signs -/

theorem F64.val_nonpos_of_neg {x : NumWord} (h : F64.isNeg x = true) : F64.val x ≤ 0 := by
  simp [F64.val, h]

theorem F64.val_ne_zero_iff {x : NumWord} : F64.val x ≠ 0 ↔ F64.mag x ≠ 0 := by
  rw [← F64.natAbs_val, Int.natAbs_ne_zero]

theorem F64.fields_neg (b : NumWord) : (F64.neg b).toNat % 2 ^ 63 = b.toNat % 2 ^ 63 := by
  have h : (F64.neg b).setWidth 63 = b.setWidth 63 := by
    unfold F64.neg
    rw [BitVec.setWidth_xor]
    simp
  simpa using congrArg BitVec.toNat h

@[simp] theorem F64.isNeg_neg (b : NumWord) : F64.isNeg (F64.neg b) = !F64.isNeg b := by
  unfold F64.isNeg F64.neg
  rw [BitVec.msb_xor]
  exact Bool.xor_true _

theorem F64.isFinite_neg {b : NumWord} (h : F64.isFinite b = true) : F64.isFinite (F64.neg b) = true := by
  rw [F64.isFinite_iff] at h ⊢
  rwa [F64.fields_neg]

@[simp] theorem F64.val_neg (b : NumWord) : F64.val (F64.neg b) = -F64.val b := by
  unfold F64.val
  rw [F64.isNeg_neg, F64.mag_eq, F64.fields_neg, ← F64.mag_eq]
  cases F64.isNeg b <;> simp

/-! What each operation rounds -/

theorem F64.isRounding_add {a b : NumWord} (ha : F64.isFinite a = true) (hb : F64.isFinite b = true) :
    F64.IsRounding (F64.val a + F64.val b) 1 (F64.add a b) := by
  rw [F64.add_finite ha hb]
  split
  · rename_i h0
    rw [h0]
    split
    · exact ⟨by decide, fun _ => le_rfl, fun _ => le_rfl⟩
    · exact ⟨by decide, fun _ => le_rfl, fun _ => le_rfl⟩
  · exact F64.isRounding_round 1 (fun h => (of_decide_eq_true h).le)
      (fun h => not_lt.1 (of_decide_eq_false h))

theorem F64.isRounding_sub {a b : NumWord} (ha : F64.isFinite a = true) (hb : F64.isFinite b = true) :
    F64.IsRounding (F64.val a - F64.val b) 1 (F64.sub a b) := by
  have h := F64.isRounding_add ha (F64.isFinite_neg hb)
  rwa [F64.val_neg, ← sub_eq_add_neg] at h

theorem F64.val_mul_val_sign (a b : NumWord) :
    ((F64.isNeg a != F64.isNeg b) = true → F64.val a * F64.val b ≤ 0) ∧
      ((F64.isNeg a != F64.isNeg b) = false → 0 ≤ F64.val a * F64.val b) := by
  have hneg := @F64.val_nonpos_of_neg
  have hpos := @F64.val_nonneg_of_not_neg
  cases ha : F64.isNeg a <;> cases hb : F64.isNeg b
  · exact ⟨nofun, fun _ => mul_nonneg (hpos ha) (hpos hb)⟩
  · exact ⟨fun _ => mul_nonpos_of_nonneg_of_nonpos (hpos ha) (hneg hb), nofun⟩
  · exact ⟨fun _ => mul_nonpos_of_nonpos_of_nonneg (hneg ha) (hpos hb), nofun⟩
  · exact ⟨nofun, fun _ => mul_nonneg_of_nonpos_of_nonpos (hneg ha) (hneg hb)⟩

theorem F64.isRounding_mul {a b : NumWord} (ha : F64.isFinite a = true) (hb : F64.isFinite b = true) :
    F64.IsRounding (F64.val a * F64.val b) F64.scale (F64.mul a b) := by
  rw [F64.mul_finite ha hb, ← F64.natAbs_val a, ← F64.natAbs_val b, ← Int.natAbs_mul]
  exact F64.isRounding_round _ (F64.val_mul_val_sign a b).1 (F64.val_mul_val_sign a b).2

/-- The quotient of two words, with the sign of the divisor moved to the dividend. -/
theorem F64.isRounding_div {a b : NumWord} (ha : F64.isFinite a = true) (hb : F64.isFinite b = true)
    (h0 : F64.mag b ≠ 0) :
    F64.IsRounding (F64.val a * F64.scale * (F64.val b).sign) (F64.mag b) (F64.div a b) := by
  have hb0 := F64.val_ne_zero_iff.2 h0
  have habs : F64.mag a * F64.scale = (F64.val a * F64.scale * (F64.val b).sign).natAbs := by
    rw [Int.natAbs_mul, Int.natAbs_mul, Int.natAbs_sign_of_ne_zero hb0, F64.natAbs_val, Int.natAbs_natCast,
      Nat.mul_one]
  have hpos : (0 : Int) < F64.mag b := by exact_mod_cast Nat.pos_of_ne_zero h0
  have hsign : F64.val a * F64.scale * (F64.val b).sign * F64.mag b =
      F64.val a * F64.val b * F64.scale := by
    rw [← F64.natAbs_val b, mul_assoc, Int.sign_mul_natAbs]
    ring
  have hscale : (0 : Int) ≤ F64.scale := Int.natCast_nonneg _
  obtain ⟨hneg, hnonneg⟩ := F64.val_mul_val_sign a b
  rw [F64.div_finite ha hb h0, habs]
  refine F64.isRounding_round _ (fun h => ?_) (fun h => ?_)
  · refine le_of_mul_le_mul_right ?_ hpos
    rw [hsign, zero_mul]
    exact mul_nonpos_of_nonpos_of_nonneg (hneg h) hscale
  · refine le_of_mul_le_mul_right ?_ hpos
    rw [hsign, zero_mul]
    exact mul_nonneg (hnonneg h) hscale

/-- `to_num` rounds the integer. -/
theorem F64.isRounding_ofInt (k : Int) : F64.IsRounding (k * F64.scale) 1 (F64.ofInt k) := by
  have hs : (0 : Int) ≤ F64.scale := Int.natCast_nonneg _
  have habs : k.natAbs * F64.scale = (k * F64.scale).natAbs := by
    rw [Int.natAbs_mul, Int.natAbs_natCast]
  rw [F64.ofInt, habs]
  exact F64.isRounding_round 1 (fun h => mul_nonpos_of_nonpos_of_nonneg (of_decide_eq_true h).le hs)
    (fun h => mul_nonneg (not_lt.1 (of_decide_eq_false h)) hs)

theorem F64.isRounding_ofRatio (n d : Nat) : F64.IsRounding (n * F64.scale : Nat) d (F64.ofRatio n d) :=
  F64.isRounding_round (z := (n * F64.scale : Nat)) d nofun fun _ => Int.natCast_nonneg _

/-! The nearest numbers -/

theorem F64.nearestTo_add {a b : NumWord} (ha : F64.isFinite a = true) (hb : F64.isFinite b = true)
    (hf : F64.isFinite (F64.add a b) = true) :
    F64.nearestTo (F64.toRat a + F64.toRat b) (F64.add a b) :=
  (F64.isRounding_add ha hb).nearestTo one_pos hf (by
    rw [add_mul, F64.toRat_mul_scale, F64.toRat_mul_scale]
    simp)

theorem F64.nearestTo_sub {a b : NumWord} (ha : F64.isFinite a = true) (hb : F64.isFinite b = true)
    (hf : F64.isFinite (F64.sub a b) = true) :
    F64.nearestTo (F64.toRat a - F64.toRat b) (F64.sub a b) :=
  (F64.isRounding_sub ha hb).nearestTo one_pos hf (by
    rw [sub_mul, F64.toRat_mul_scale, F64.toRat_mul_scale]
    simp)

theorem F64.nearestTo_mul {a b : NumWord} (ha : F64.isFinite a = true) (hb : F64.isFinite b = true)
    (hf : F64.isFinite (F64.mul a b) = true) :
    F64.nearestTo (F64.toRat a * F64.toRat b) (F64.mul a b) :=
  (F64.isRounding_mul ha hb).nearestTo F64.scale_pos hf (by
    rw [eq_div_iff F64.scale_cast_pos.ne', Int.cast_mul, ← F64.toRat_mul_scale, ← F64.toRat_mul_scale]
    ring)

theorem F64.nearestTo_div {a b : NumWord} (ha : F64.isFinite a = true) (hb : F64.isFinite b = true)
    (h0 : F64.toRat b ≠ 0) (hf : F64.isFinite (F64.div a b) = true) :
    F64.nearestTo (F64.toRat a / F64.toRat b) (F64.div a b) := by
  have hmag : F64.mag b ≠ 0 := fun h =>
    h0 (by rw [F64.toRat, F64.val_of_mag_zero h, Int.cast_zero, zero_div])
  have hsign : ((F64.val b).sign : ℚ) * F64.val b = F64.mag b := by
    rw [← F64.natAbs_val, ← Int.cast_mul, Int.sign_mul_self_eq_natAbs, Int.cast_natCast]
  refine (F64.isRounding_div ha hb hmag).nearestTo (Nat.pos_of_ne_zero hmag) hf ?_
  have hmag' : (F64.mag b : ℚ) ≠ 0 := by exact_mod_cast hmag
  rw [div_mul_eq_mul_div, div_eq_div_iff h0 hmag', ← hsign]
  push_cast
  rw [← F64.toRat_mul_scale a, ← F64.toRat_mul_scale b]
  ring

theorem F64.nearestTo_ofRatio {n d : Nat} (hd : 0 < d) (hf : F64.isFinite (F64.ofRatio n d) = true) :
    F64.nearestTo (n / d) (F64.ofRatio n d) :=
  (F64.isRounding_ofRatio n d).nearestTo hd hf (by push_cast; ring)

/-! Integers -/

/-- Every integer of at most 53 bits is a magnitude of the format. -/
theorem F64.exists_fieldsMag_eq {k : Nat} (hk : k < 2 ^ 53) :
    ∃ w, w < 2047 * 2 ^ 52 ∧ k * F64.scale = F64.fieldsMag w := by
  obtain rfl | h0 := Nat.eq_zero_or_pos k
  · exact ⟨0, by norm_num, by simp [F64.fieldsMag]⟩
  -- the significand is `k` shifted up to 53 bits
  have hlog : Nat.log2 k < 53 := (Nat.log2_lt h0.ne').2 hk
  have hlo : 2 ^ 52 ≤ k * 2 ^ (52 - Nat.log2 k) :=
    calc 2 ^ 52 = 2 ^ Nat.log2 k * 2 ^ (52 - Nat.log2 k) := by rw [← pow_add]; congr 1; omega
      _ ≤ _ := Nat.mul_le_mul_right _ (Nat.log2_self_le h0.ne')
  have hhi : k * 2 ^ (52 - Nat.log2 k) < 2 ^ 53 :=
    calc k * 2 ^ (52 - Nat.log2 k) < 2 ^ (Nat.log2 k + 1) * 2 ^ (52 - Nat.log2 k) :=
          Nat.mul_lt_mul_of_pos_right Nat.lt_log2_self (by positivity)
      _ = 2 ^ 53 := by rw [← pow_add]; congr 1; omega
  have hscale : F64.scale = 2 ^ (52 - Nat.log2 k) * 2 ^ (1022 + Nat.log2 k) := by
    rw [F64.scale, ← pow_add]
    congr 1
    omega
  refine ⟨(1022 + Nat.log2 k) * 2 ^ 52 + k * 2 ^ (52 - Nat.log2 k), by omega, ?_⟩
  rw [F64.fieldsMag_normal hlo hhi.le, hscale, mul_assoc]

/-- Integers of at most 53 bits convert exactly (00_scope.md R16 (g)). -/
theorem F64.ofInt_exact {k : Int} (hk : k.natAbs < 2 ^ 53) :
    F64.isFinite (F64.ofInt k) = true ∧ F64.toRat (F64.ofInt k) = k := by
  obtain ⟨w, hw, hmag⟩ := F64.exists_fieldsMag_eq hk
  obtain ⟨hf, hval⟩ := (F64.isRounding_ofInt k).exact one_pos hw
    (by rw [Int.natAbs_mul, Int.natAbs_natCast, hmag, Nat.mul_one])
  refine ⟨hf, ?_⟩
  rw [F64.toRat, div_eq_iff F64.scale_cast_pos.ne']
  rw [Nat.cast_one, mul_one] at hval
  exact_mod_cast hval

end Sys2Proof.Machine

namespace Sys2Proof

open Machine

/-- Settles O51: each operation holds the exact result rounded once, and a finite rounding is the nearest
number, ties to even. -/
theorem arithmeticNearestEven : Obligations.ArithmeticNearestEven := fun _ _ ha hb =>
  ⟨F64.nearestTo_add ha hb, F64.nearestTo_sub ha hb, F64.nearestTo_mul ha hb, F64.nearestTo_div ha hb⟩

/-- `1 − EMA_ALPHA` lies midway between two words, and the even one is that of 0.8. -/
theorem sub_one_emaAlpha : F64.sub F64.one (emaAlpha num) = F64.ofRatio 8 10 := by decide +kernel

/-- Settles O54: the decimal constants are `ofRatio` of their decimals, which rounds to nearest. -/
theorem configurationConstants : Obligations.ConfigurationConstants := by
  refine ⟨rfl, rfl, rfl, rfl, rfl, ?alpha, by decide +kernel, ?target, ?step, ?min, ?max, ?complement⟩
  case alpha => exact_mod_cast F64.nearestTo_ofRatio (n := 20) (d := 100) (by norm_num) (by decide +kernel)
  case target => exact_mod_cast F64.nearestTo_ofRatio (n := 35) (d := 100) (by norm_num) (by decide +kernel)
  case step => exact_mod_cast F64.nearestTo_ofRatio (n := 15) (d := 1000) (by norm_num) (by decide +kernel)
  case min => exact_mod_cast F64.nearestTo_ofRatio (n := 5) (d := 100) (by norm_num) (by decide +kernel)
  case max =>
    rw [← div_one 200]
    exact_mod_cast F64.nearestTo_ofRatio (n := 200) (d := 1) (by norm_num) (by decide +kernel)
  case complement =>
    rw [sub_one_emaAlpha]
    exact_mod_cast F64.nearestTo_ofRatio (n := 8) (d := 10) (by norm_num) (by decide +kernel)

end Sys2Proof
end

section
/-! PROOF. The square root is the binary64 number nearest to the real root, and the properties of
00_scope.md R16. -/

namespace Sys2Proof.Machine

/-! The root with its remainder bit rounds as the real root does -/

theorem F64.pow_dvd_fieldsMag {j w : Nat} (h : (j + 1) * 2 ^ 52 ≤ w) : 2 ^ j ∣ F64.fieldsMag w := by
  have hexp : j + 1 ≤ w / 2 ^ 52 := (Nat.le_div_iff_mul_le (by norm_num)).2 h
  unfold F64.fieldsMag
  rw [if_neg (by omega)]
  exact dvd_mul_of_dvd_right (pow_dvd_pow 2 (by omega)) _

/-- The integer root and one bit that records a remainder, as `sqrtRound` rounds them. -/
def F64.stickyRoot (n : Nat) : Nat :=
  2 * F64.isqrt n + if F64.isqrt n * F64.isqrt n = n then 0 else 1

/-- The rounding of a root of at least 56 bits keeps 53 of them, so every midpoint near it is a multiple
of the root's unit. -/
theorem F64.roundFields_root_large {h e : Nat} (hh : 2 ^ 56 ≤ h) :
    (e + 2) * 2 ^ 52 < F64.roundFields (h * 2 ^ e) 2 := by
  refine lt_of_lt_of_le (b := (e + 3) * 2 ^ 52) (by omega) ?_
  rw [← F64.roundFields_exact ((e + 3) * 2 ^ 52) 2 (by norm_num)]
  refine F64.roundFields_mono (by norm_num) (by norm_num) (Nat.mul_le_mul_right 2 ?_)
  rw [show (e + 3) * 2 ^ 52 = (e + 2) * 2 ^ 52 + 2 ^ 52 by ring,
    F64.fieldsMag_normal le_rfl (by norm_num), pow_add]
  have := Nat.mul_le_mul_right (2 ^ e) hh
  omega

/-- Large neighbouring magnitudes have their midpoint at a multiple of `2^e`. -/
theorem F64.exists_midpoint {e v : Nat} (hv : (e + 2) * 2 ^ 52 ≤ v) :
    ∃ j, F64.fieldsMag v + F64.fieldsMag (v + 1) = 2 * (j * 2 ^ e) := by
  obtain ⟨j, hj⟩ := Nat.dvd_add (F64.pow_dvd_fieldsMag (j := e + 1) hv)
    (F64.pow_dvd_fieldsMag (j := e + 1) (Nat.le_succ_of_le hv))
  exact ⟨j, by rw [hj, pow_succ]; ring⟩

/-- Between two integer roots no midpoint lies, so the one-bit remainder decides the rounding. -/
theorem F64.between_of_remainder {r e : Nat} {y : ℝ} (hr : 2 ^ 55 ≤ r) (hlo : (r : ℝ) ≤ y)
    (hhi : y ≤ r + 1) : F64.Between (F64.roundFields ((2 * r + 1) * 2 ^ e) 2) (y * 2 ^ e) := by
  have hlarge := F64.roundFields_root_large (h := 2 * r + 1) (e := e) (by omega)
  obtain ⟨w, hw⟩ : ∃ w, F64.roundFields ((2 * r + 1) * 2 ^ e) 2 = w := ⟨_, rfl⟩
  rw [hw] at hlarge ⊢
  have hg : (0 : ℝ) < 2 ^ e := by positivity
  have hg' : 0 < 2 ^ e := by positivity
  constructor
  · obtain ⟨j, hj⟩ := F64.exists_midpoint (e := e) hlarge.le
    have habove := (F64.roundFields_above two_pos hw).1
    rw [hj] at habove
    have hunits : (2 * r + 1) * 2 ^ e ≤ 2 * j * 2 ^ e := by linarith
    have hrj : 2 * r + 1 ≤ 2 * j := Nat.le_of_mul_le_mul_right hunits hg'
    have hyj : y ≤ j := hhi.trans (by exact_mod_cast (by omega : r + 1 ≤ j))
    have hsum : (F64.fieldsMag w : ℝ) + F64.fieldsMag (w + 1) = 2 * (j * 2 ^ e) := by exact_mod_cast hj
    rw [hsum]
    linarith [mul_le_mul_of_nonneg_right hyj hg.le]
  · intro v hv
    subst hv
    obtain ⟨j, hj⟩ := F64.exists_midpoint (e := e) (Nat.le_of_lt_succ hlarge)
    have hbelow := (F64.roundFields_below two_pos hw).1
    rw [hj] at hbelow
    have hunits : 2 * j * 2 ^ e ≤ (2 * r + 1) * 2 ^ e := by linarith
    have hrj : 2 * j ≤ 2 * r + 1 := Nat.le_of_mul_le_mul_right hunits hg'
    have hyj : (j : ℝ) ≤ y := le_trans (by exact_mod_cast (by omega : j ≤ r)) hlo
    have hsum : (F64.fieldsMag v : ℝ) + F64.fieldsMag (v + 1) = 2 * (j * 2 ^ e) := by exact_mod_cast hj
    rw [hsum]
    linarith [mul_le_mul_of_nonneg_right hyj hg.le]

/-- The rounding of the root and its remainder bit is that of the real root. -/
theorem F64.stickyRoot_between {n : Nat} (e : Nat) (hlo : 2 ^ 110 ≤ n) (hhi : n < 2 ^ 168) :
    F64.Between (F64.roundFields (F64.stickyRoot n * 2 ^ e) 2) (Real.sqrt n * 2 ^ e) := by
  obtain ⟨hle, hlt⟩ := F64.isqrt_spec n hhi
  unfold F64.stickyRoot
  generalize F64.isqrt n = r at *
  split
  · rename_i hsq
    have hroot : Real.sqrt n = r := by
      rw [← hsq, Nat.cast_mul, Real.sqrt_mul_self (Nat.cast_nonneg r)]
    have h := F64.roundFields_between (K := ℝ) ((2 * r + 0) * 2 ^ e) two_pos
    have hquot : (((2 * r + 0) * 2 ^ e : Nat) : ℝ) / (2 : Nat) = r * 2 ^ e := by
      push_cast; ring
    rwa [hquot, ← hroot] at h
  · apply F64.between_of_remainder
    · have hsq : 2 ^ 55 * 2 ^ 55 < (r + 1) * (r + 1) := lt_of_le_of_lt (by omega) hlt
      exact Nat.lt_succ_iff.1 (Nat.mul_self_lt_mul_self_iff.1 hsq)
    · exact Real.le_sqrt_of_sq_le (by rw [sq]; exact_mod_cast hle)
    · rw [Real.sqrt_le_left (by positivity), sq]
      exact_mod_cast hlt.le

/-! The square root of a word -/

theorem F64.mag_eq_significand (x : NumWord) :
    F64.mag x = F64.significand x * 2 ^ (F64.expField x - 1) := by
  unfold F64.mag F64.significand
  split
  · rename_i h
    simp [h]
  · rfl

theorem F64.significand_lt (x : NumWord) : F64.significand x < 2 ^ 53 := by
  have : F64.fracField x < 2 ^ 52 := Nat.mod_lt _ (by norm_num)
  unfold F64.significand
  split <;> omega

/-- The operand and the scaling of `sqrtRound`, in terms of the exponent field. -/
theorem F64.sqrtRound_eq {x : NumWord} {e p : Nat} (he : 1074 + (F64.expField x - 1) = 110 + p + 2 * e)
    (hp : p < 2) :
    F64.sqrtRound x = F64.round false (F64.stickyRoot (F64.significand x * 2 ^ (110 + p)) * 2 ^ e) 2 := by
  have hmod : (1074 + (F64.expField x - 1)) % 2 = p := by omega
  have hexp : (1074 + (F64.expField x - 1) - 110 - p) / 2 = e := by omega
  simp only [F64.sqrtRound, F64.stickyRoot, hmod, hexp]

theorem F64.sqrt_mag_scale {x : NumWord} {e p : Nat}
    (he : 1074 + (F64.expField x - 1) = 110 + p + 2 * e) :
    Real.sqrt ((F64.mag x : ℝ) * F64.scale) =
      Real.sqrt (F64.significand x * 2 ^ (110 + p) : Nat) * 2 ^ e := by
  have hunits : F64.mag x * F64.scale = F64.significand x * 2 ^ (110 + p) * (2 ^ e * 2 ^ e) := by
    rw [F64.mag_eq_significand, F64.scale, mul_assoc, mul_assoc, ← pow_add, ← pow_add, ← pow_add]
    congr 2
    omega
  rw [← Nat.cast_mul, hunits, Nat.cast_mul, Real.sqrt_mul (Nat.cast_nonneg _), Nat.cast_mul (2 ^ e),
    Real.sqrt_mul_self (Nat.cast_nonneg _), Nat.cast_pow, Nat.cast_ofNat]

theorem F64.stickyRoot_lt {n : Nat} (hn : n < 2 ^ 168) : F64.stickyRoot n < 2 ^ 85 := by
  have hle := (F64.isqrt_spec n hn).1
  have hroot : F64.isqrt n < 2 ^ 84 :=
    Nat.mul_self_lt_mul_self_iff.1 (lt_of_le_of_lt hle (by omega))
  unfold F64.stickyRoot
  split <;> omega

/-- The root of a positive word is finite, and its fields round the real root. -/
theorem F64.sqrtRound_spec {x : NumWord} (h0 : F64.mag x ≠ 0) :
    F64.isFinite (F64.sqrtRound x) = true ∧ F64.isNeg (F64.sqrtRound x) = false ∧
      F64.Between ((F64.sqrtRound x).toNat % 2 ^ 63) (Real.sqrt ((F64.mag x : ℝ) * F64.scale)) := by
  obtain ⟨e, p, hp, he⟩ : ∃ e p, p < 2 ∧ 1074 + (F64.expField x - 1) = 110 + p + 2 * e :=
    ⟨(964 + (F64.expField x - 1)) / 2, (964 + (F64.expField x - 1)) % 2, by omega, by omega⟩
  rw [F64.sqrtRound_eq he hp, F64.sqrt_mag_scale he]
  have hlo : 2 ^ 110 ≤ F64.significand x * 2 ^ (110 + p) := by
    have hs : F64.significand x ≠ 0 := fun h => h0 (by rw [F64.mag_eq_significand, h, Nat.zero_mul])
    calc 2 ^ 110 ≤ 2 ^ (110 + p) := Nat.pow_le_pow_right two_pos (by omega)
      _ ≤ _ := Nat.le_mul_of_pos_left _ (Nat.pos_of_ne_zero hs)
  have hhi : F64.significand x * 2 ^ (110 + p) < 2 ^ 168 :=
    calc F64.significand x * 2 ^ (110 + p) < 2 ^ 53 * 2 ^ 111 :=
          Nat.mul_lt_mul_of_lt_of_le (F64.significand_lt x) (Nat.pow_le_pow_right two_pos (by omega))
            (by positivity)
      _ < 2 ^ 168 := by norm_num
  generalize F64.significand x * 2 ^ (110 + p) = n at *
  -- no root comes near the overflow threshold
  have hexp : F64.expField x < 2 ^ 11 := Nat.mod_lt _ (by norm_num)
  have hroundLe : F64.roundMag (F64.stickyRoot n * 2 ^ e) 2 ≤ e * 2 ^ 52 + 2 ^ 58 := by
    refine F64.roundMag_le two_pos (by omega) ?_
    rw [show e * 2 ^ 52 + 2 ^ 58 = (e + 63) * 2 ^ 52 + 2 ^ 52 by ring,
      F64.fieldsMag_normal le_rfl (by norm_num), pow_add]
    have := Nat.mul_le_mul_right (2 ^ e) (F64.stickyRoot_lt hhi).le
    omega
  have hlt : F64.roundMag (F64.stickyRoot n * 2 ^ e) 2 < 2047 * 2 ^ 52 :=
    lt_of_le_of_lt hroundLe (by omega)
  obtain ⟨hneg, -, hfin⟩ := F64.round_spec false (F64.stickyRoot n * 2 ^ e) 2
  refine ⟨hfin.2 hlt, hneg, ?_⟩
  have hfields : F64.roundMag (F64.stickyRoot n * 2 ^ e) 2 = F64.roundFields (F64.stickyRoot n * 2 ^ e) 2 := by
    rw [F64.roundMag_eq] at hlt ⊢
    omega
  rw [F64.round, F64.fields_pack _ _ (hlt.trans (by norm_num)), hfields]
  exact F64.stickyRoot_between e hlo hhi

theorem F64.sqrt_of_zero {x : NumWord} (hf : F64.isFinite x = true) (h0 : F64.mag x = 0) :
    F64.sqrt x = x := by
  simp [F64.sqrt, F64.not_nan_of_finite hf, hf, h0]

theorem F64.sqrt_of_pos {x : NumWord} (hf : F64.isFinite x = true) (h0 : 0 < F64.val x) :
    F64.sqrt x = F64.sqrtRound x := by
  have hmag : F64.mag x ≠ 0 := F64.val_ne_zero_iff.1 h0.ne'
  have hneg : F64.isNeg x = false := by
    by_contra h
    have := F64.val_nonpos_of_neg (Bool.not_eq_false _ ▸ h)
    omega
  simp [F64.sqrt, F64.not_nan_of_finite hf, F64.not_inf_of_finite hf, hneg, hmag]

/-- A finite word that is not negative is a zero, or its root is `sqrtRound`'s. -/
theorem F64.sqrt_cases {x : NumWord} (hf : F64.isFinite x = true) (h0 : 0 ≤ F64.val x) :
    (F64.mag x = 0 ∧ F64.sqrt x = x) ∨ (F64.mag x ≠ 0 ∧ F64.sqrt x = F64.sqrtRound x) := by
  by_cases hmag : F64.mag x = 0
  · exact .inl ⟨hmag, F64.sqrt_of_zero hf hmag⟩
  · exact .inr ⟨hmag, F64.sqrt_of_pos hf (lt_of_le_of_ne h0 (F64.val_ne_zero_iff.2 hmag).symm)⟩

/-- The root is defined and not negative (00_scope.md R16 (c)). -/
theorem F64.sqrt_nonneg {x : NumWord} (hf : F64.isFinite x = true) (h0 : 0 ≤ F64.val x) :
    F64.isFinite (F64.sqrt x) = true ∧ 0 ≤ F64.val (F64.sqrt x) := by
  rcases F64.sqrt_cases hf h0 with ⟨-, hroot⟩ | ⟨hmag, hroot⟩
  · rw [hroot]
    exact ⟨hf, h0⟩
  · obtain ⟨hfin, hneg, -⟩ := F64.sqrtRound_spec hmag
    rw [hroot]
    exact ⟨hfin, F64.val_nonneg_of_not_neg hneg⟩

theorem F64.sqrt_isZero {x : NumWord} (h : F64.isZero x) : F64.isZero (F64.sqrt x) := by
  rwa [F64.sqrt_of_zero h.1 h.2]

theorem F64.sqrt_toRat_mul_scale {x : NumWord} (h0 : 0 ≤ F64.val x) :
    Real.sqrt ((F64.toRat x : ℚ) : ℝ) * F64.scale = Real.sqrt ((F64.mag x : ℝ) * F64.scale) := by
  have hs : (0 : ℝ) < F64.scale := F64.scale_cast_pos
  have hval : (F64.val x : ℝ) = F64.mag x := by
    rw [← F64.abs_val, abs_of_nonneg (by exact_mod_cast h0)]
  rw [F64.toRat, Rat.cast_div, Rat.cast_intCast, Rat.cast_natCast, hval]
  calc Real.sqrt ((F64.mag x : ℝ) / F64.scale) * F64.scale
      = Real.sqrt ((F64.mag x : ℝ) / F64.scale) * Real.sqrt ((F64.scale : ℝ) * F64.scale) := by
        rw [Real.sqrt_mul_self hs.le]
    _ = Real.sqrt ((F64.mag x : ℝ) / F64.scale * (F64.scale * F64.scale)) :=
        (Real.sqrt_mul (div_nonneg (Nat.cast_nonneg _) hs.le) _).symm
    _ = Real.sqrt ((F64.mag x : ℝ) * F64.scale) := by
        rw [← mul_assoc, div_mul_cancel₀ _ hs.ne']

end Sys2Proof.Machine

namespace Sys2Proof

open Machine

/-- Settles O52: no midpoint of the format lies between the root taken in integers, with its remainder bit,
and the real root, so both have the same nearest word. -/
theorem sqrtNearest : Obligations.SqrtNearest := by
  intro a hf h0
  obtain ⟨hfin, hnonneg⟩ := F64.sqrt_nonneg hf h0
  refine ⟨hfin, hnonneg, fun c _ => ?_⟩
  rw [F64.abs_cast_toRat_sub, F64.abs_cast_toRat_sub, F64.sqrt_toRat_mul_scale h0]
  refine div_le_div_of_nonneg_right ?_ (Nat.cast_nonneg _)
  rcases F64.sqrt_cases hf h0 with ⟨hmag, hroot⟩ | ⟨hmag, hroot⟩
  · rw [hroot, F64.val_of_mag_zero hmag, hmag, Nat.cast_zero, zero_mul, Real.sqrt_zero, Int.cast_zero,
      sub_zero, abs_zero]
    exact abs_nonneg _
  · have hroot0 := Real.sqrt_nonneg ((F64.mag a : ℝ) * F64.scale)
    refine F64.val_near (mul_nonneg (by exact_mod_cast hnonneg) hroot0) ?_ c
    rw [abs_of_nonneg hroot0, hroot]
    exact (F64.sqrtRound_spec hmag).2.2

/-- Settles O53: each operation is a rounding, and rounding keeps signs, zeros, the order and the values of
the format. -/
theorem numProperties : Obligations.NumProperties := by
  refine ⟨?mulNonneg, ?addNonneg, ?sqrt, ?zero, ?mono, ?clamp, ?integers⟩
  case mulNonneg => exact fun a b _ ha hb h h' => (F64.isRounding_mul ha hb).nonneg (mul_nonneg h h')
  case addNonneg => exact fun a b _ ha hb h h' => (F64.isRounding_add ha hb).nonneg (add_nonneg h h')
  case sqrt =>
    intro a ha h
    obtain ⟨hfin, hnonneg⟩ := F64.sqrt_nonneg ha h
    exact ⟨hfin, hnonneg, F64.sqrt_isZero⟩
  case zero =>
    intro a b ⟨ha, hmag⟩ hb
    have hmul := F64.isRounding_mul ha hb
    rw [F64.val_of_mag_zero hmag, zero_mul] at hmul
    refine ⟨hmul.isZero, fun hzero => ?_⟩
    have hadd := F64.isRounding_add ha hb
    rw [F64.val_of_mag_zero hmag, F64.val_of_mag_zero hzero.2, add_zero] at hadd
    exact hadd.isZero
  case mono =>
    intro a b c ha hb hc hab
    refine ⟨fun _ _ => ?_, fun h _ _ => ?_⟩
    · exact (F64.isRounding_add ha hc).mono (F64.isRounding_add hb hc) one_pos (by omega)
    · exact (F64.isRounding_mul ha hc).mono (F64.isRounding_mul hb hc) F64.scale_pos
        (mul_le_mul_of_nonneg_right hab h)
  case clamp =>
    intro x lo hi hx hlo hhi hle
    obtain ⟨r, hr⟩ := Numeric.clamp_isSome lo hi hx
    exact ⟨r, hr, Numeric.clamp_within hr hlo hhi hle⟩
  case integers => exact fun k hk => F64.ofInt_exact (lt_of_le_of_lt hk (by norm_num))

end Sys2Proof
end

section
/-! PROOF. Each register, buffer, control register and stream has its writers, and no other operation
changes it (10_state.md R23, R30, R33 to R36; 20_memory.md R60, R68). -/

namespace Sys2Proof.Machine

/-- The state `s` with all that the sampler's loop writes taken from `u`: the registers `I` and `RAW`, the
frame buffers, the ADC's control register and its conversions, the microsecond clock (43_sampler.md R140). -/
def State.withSamplesOf (s u : State) : State :=
  { s with
    i := u.i, raw := u.raw, vReal := u.vReal, vImag := u.vImag, adcch := u.adcch, inFlight := u.inFlight
    seen := { s.seen with conversions := u.seen.conversions }
    env := { s.env with us := u.env.us, adc := u.env.adc } }

/-- One trip round the loop writes only what `withSamplesOf` names. -/
theorem sampleOne_withSamplesOf (s u : State) : s.sampleOne.withSamplesOf u = s.withSamplesOf u := by
  simp [State.withSamplesOf, State.sampleOne]

/-- The sampler's loop changes nothing but what `withSamplesOf` names. -/
theorem sampleLoop_eq_withSamplesOf (k : Nat) (s : State) :
    s.sampleLoop k = s.withSamplesOf (s.sampleLoop k) := by
  induction k generalizing s with
  | zero => rfl
  | succ k ih => exact (ih s.sampleOne).trans (sampleOne_withSamplesOf s _)

theorem sampleStart_withSamplesOf (s u : State) :
    (s.sampleStart.withSamplesOf u).advance .sample =
      { s with t0 := s.env.us.read.now, stage := 4 }.withSamplesOf u := rfl

/-- SAMPLE changes nothing but what its loop writes, `T0` and `STAGE`. -/
theorem exec_sample_withSamplesOf {s t : State} (h : exec .sample s = .next t) :
    t = { s with t0 := s.env.us.read.now, stage := 4 }.withSamplesOf (s.sampleStart.sampleLoop s.len) := by
  obtain ⟨-, rfl⟩ := exec_sample_next h
  rw [← sampleStart_withSamplesOf, ← sampleLoop_eq_withSamplesOf]

end Sys2Proof.Machine

namespace Sys2Proof

open Machine

/-- Settles O55: what each operation answers, said once in the laws of the operations, names every field it
writes. -/
theorem registersHaveOneWriter : Obligations.RegistersHaveOneWriter := by
  intro i s t h
  cases i with
  | pwminit =>
    rw [exec_pwminit] at h
    cases h
    simp
  | wininit =>
    rw [exec_wininit] at h
    cases h
    simp
  | banner =>
    rw [exec_banner] at h
    cases h
    split
    · simp
    · simp
  | sample =>
    obtain rfl := exec_sample_withSamplesOf h
    simp [State.withSamplesOf]
  | fft =>
    obtain ⟨-, rfl⟩ := exec_fft_next h
    simp
  | bandsel =>
    rw [exec_bandsel] at h
    cases h
    simp
  | energy =>
    obtain ⟨-, rfl⟩ := exec_energy_next h
    simp
  | agc =>
    obtain ⟨_, -, rfl⟩ := exec_agc_next h
    simp
  | render =>
    obtain ⟨_, -, rfl⟩ := exec_render_next h
    simp
  | pwmwr =>
    rw [exec_pwmwr] at h
    cases h
    simp
  | trace =>
    obtain ⟨-, rfl⟩ | ⟨-, _, -, rfl⟩ := exec_trace_next h
    · simp
    · simp

end Sys2Proof
end

section
/-! PROOF. The operation codes, the byte packing, the assembler and the pseudo-operations
(30_encoding.md R80 to R86). -/

namespace Sys2Proof

open Machine

/-! Codes -/

/-- Each operation's code decodes to it (30_encoding.md R81). -/
@[simp] theorem decode_encode (i : Instr) : decode (encode i) = .ok i := by
  cases i <;> rfl

/-- A code of the map decodes to the operation whose code it is, any other is invalid (30_encoding.md R81,
R83). -/
theorem decode_cases (c : BitVec 4) :
    (∃ i, decode c = .ok i ∧ encode i = c) ∨ (11 ≤ c.toNat ∧ decode c = .error (.reservedCode c)) := by
  by_cases hc : c.toNat < 11
  · left
    unfold decode
    generalize hn : c.toNat = n at hc
    obtain rfl : c = BitVec.ofNat 4 n := BitVec.eq_of_toNat_eq (by rw [hn, BitVec.toNat_ofNat]; omega)
    interval_cases n <;> exact ⟨_, rfl, rfl⟩
  · right
    refine ⟨by omega, ?_⟩
    unfold decode
    split
    case h_12 => rfl
    all_goals omega

theorem encode_of_decode {c : BitVec 4} {i : Instr} (h : decode c = .ok i) : encode i = c := by
  obtain ⟨j, hj, hc⟩ | ⟨-, hc⟩ := decode_cases c
  · rw [hj] at h
    injection h with h
    rwa [← h]
  · rw [hc] at h
    cases h

theorem encode_le (i : Instr) : (encode i).toNat ≤ 10 := by
  cases i <;> decide

theorem decode_reserved {c : BitVec 4} (h : 11 ≤ c.toNat) : decode c = .error (.reservedCode c) := by
  obtain ⟨i, -, hc⟩ | ⟨-, hc⟩ := decode_cases c
  · have := encode_le i
    rw [hc] at this
    omega
  · exact hc

/-- The next stage is the code of the operation that follows (40_sequencer.md R101). -/
theorem nextStage_eq_encode (i : Instr) : nextStage i = encode i.follows := by
  cases i <;> rfl

/-- Settles O4: the decoder evaluates on each code. -/
theorem operationCodes : Obligations.OperationCodes :=
  ⟨rfl, rfl, rfl, rfl, rfl, rfl, rfl, rfl, rfl, rfl, rfl⟩

/-- Settles O5: a code that decodes is the code of the operation it decodes to. -/
theorem decodeEncodeAgree : Obligations.DecodeEncodeAgree :=
  ⟨fun i _ => decode_encode i, fun _ _ => encode_of_decode⟩

/-- Settles O2: every next stage is the code of an operation, and no such code is reserved. -/
theorem reservedCodesRefused : Obligations.ReservedCodesRefused := by
  refine ⟨fun _ => decode_reserved, fun s hr hs => ?_, fun i => ?_, fun _ _ => rfl⟩
  · rw [step, hr, if_neg Bool.false_ne_true]
    exact sequencerStep_of_error (decode_reserved hs)
  · rw [nextStage_eq_encode]
    exact encode_le _

/-! Sequences of codes -/

theorem decodeSeq_encodeSeq (ops : List Instr) : decodeSeq (encodeSeq ops) = .ok ops := by
  induction ops with
  | nil => rfl
  | cons i rest ih =>
    rw [encodeSeq] at ih ⊢
    rw [List.map_cons, decodeSeq, decode_encode, ih]

theorem length_packCodes (cs : List (BitVec 4)) : (packCodes cs).length = (cs.length + 1) / 2 := by
  induction cs using packCodes.induct with
  | case1 => rfl
  | case2 a => simp [packCodes]
  | case3 a b rest ih =>
    rw [packCodes, List.length_cons, ih, List.length_cons, List.length_cons]
    omega

/-- A byte of two codes holds the first in its high nibble (30_encoding.md R86). -/
theorem toNat_append_codes (a b : BitVec 4) : (a ++ b).toNat = 16 * a.toNat + b.toNat := by
  have hb : b.toNat < 2 ^ 4 := b.isLt
  rw [BitVec.toNat_append, ← Nat.shiftLeft_add_eq_or_of_lt hb, Nat.shiftLeft_eq]
  omega

/-- The `k`-th code stands in byte `k / 2`: in the high nibble for even `k`, in the low one for odd `k`. -/
theorem packCodes_nibble (cs : List (BitVec 4)) (k : Nat) (c : BitVec 4) (h : cs[k]? = some c) :
    ((packCodes cs).getD (k / 2) 0).toNat / (if k % 2 = 0 then 16 else 1) % 16 = c.toNat := by
  have hc : c.toNat < 16 := c.isLt
  induction cs using packCodes.induct generalizing k with
  | case1 => simp at h
  | case2 a =>
    obtain ⟨rfl, rfl⟩ : k = 0 ∧ a = c := by simpa [List.getElem?_singleton] using h
    simp [packCodes, toNat_append_codes]
    omega
  | case3 a b rest ih =>
    have hb : b.toNat < 16 := b.isLt
    match k with
    | 0 =>
      obtain rfl : a = c := by simpa using h
      simp [packCodes, toNat_append_codes]
      omega
    | 1 =>
      obtain rfl : b = c := by simpa using h
      simp [packCodes, toNat_append_codes]
      omega
    | k + 2 =>
      have hrest := ih k (by simpa using h)
      rw [packCodes, show (k + 2) / 2 = k / 2 + 1 by omega, List.getD_cons_succ, Nat.add_mod_right]
      exact hrest

/-- Settles O6: decoding follows the list of codes, packing takes it two codes at a time. -/
theorem sequencePacking : Obligations.SequencePacking := by
  refine ⟨fun ops => ⟨decodeSeq_encodeSeq ops, ?_, fun k i hi => ?_⟩, by decide, by decide⟩
  · rw [length_packCodes, encodeSeq, List.length_map]
  · refine packCodes_nibble _ k _ ?_
    rw [encodeSeq, List.getElem?_map, hi]
    rfl

/-! The assembler -/

theorem mnemonic_chars (i : Instr) : ∀ c ∈ i.mnemonic, c ≠ ' ' ∧ c ≠ ';' := by
  cases i <;> simp [Instr.mnemonic]

theorem mnemonic_ne_nil (i : Instr) : i.mnemonic ≠ [] := by
  cases i <;> decide

/-- No two operations share a mnemonic, so looking one up finds its operation (30_encoding.md R84). -/
theorem find?_mnemonic (i : Instr) : Instr.all.find? (fun j => j.mnemonic == i.mnemonic) = some i := by
  cases i <;> rfl

/-- A text without spaces is left when the spaces around it are removed. -/
theorem dropWhile_space_of_all_ne {l rest : List Char} (h : ∀ c ∈ l, c ≠ ' ') (hl : l ≠ []) :
    (l ++ rest).dropWhile (fun c => c == ' ') = l ++ rest := by
  obtain ⟨c, l, rfl⟩ := List.exists_cons_of_ne_nil hl
  have hc : (c == ' ') = false := by simpa using h c (List.mem_cons_self ..)
  rw [List.cons_append, List.dropWhile_cons_of_neg (by rw [hc]; exact Bool.false_ne_true)]

/-- A mnemonic, spaces, and then nothing or a comment: stripping leaves the mnemonic. -/
theorem stripLine_mnemonic (i : Instr) (n : Nat) {rest : List Char}
    (hrest : rest.takeWhile (fun c => c != ';') = []) :
    stripLine (i.mnemonic ++ (List.replicate n ' ' ++ rest)) = i.mnemonic := by
  have hspace : ∀ c ∈ i.mnemonic, c ≠ ' ' := fun c hc => (mnemonic_chars i c hc).1
  have hbody : (i.mnemonic ++ (List.replicate n ' ' ++ rest)).takeWhile (fun c => c != ';') =
      i.mnemonic ++ List.replicate n ' ' := by
    rw [← List.append_assoc, List.takeWhile_append_of_pos, hrest, List.append_nil]
    intro c hc
    rcases List.mem_append.1 hc with hc | hc
    · simpa using (mnemonic_chars i c hc).2
    · rw [List.eq_of_mem_replicate hc]
      rfl
  have hend : (List.replicate n ' ').dropWhile (fun c => c == ' ') = [] := by simp
  rw [stripLine, hbody, dropWhile_space_of_all_ne hspace (mnemonic_ne_nil i), List.reverse_append,
    List.reverse_replicate, List.dropWhile_append_of_pos (by simp),
    ← List.append_nil i.mnemonic.reverse,
    dropWhile_space_of_all_ne (by simpa using hspace) (by simpa using mnemonic_ne_nil i)]
  simp

theorem assembleLine_of_stripLine {line : List Char} {i : Instr} (h : stripLine line = i.mnemonic) :
    assembleLine line = some [i] := by
  unfold assembleLine
  split
  · rename_i hnil
    exact absurd (h.symm.trans hnil) (mnemonic_ne_nil i)
  · rw [h, find?_mnemonic, Option.map_some]

theorem assembleLine_mnemonic (i : Instr) : assembleLine i.mnemonic = some [i] :=
  assembleLine_of_stripLine (by simpa using stripLine_mnemonic i 0 (rest := []) rfl)

/-- Settles O7: each line strips to its mnemonic, and no two operations share one. -/
theorem assemblerReadsMnemonics : Obligations.AssemblerReadsMnemonics := by
  refine ⟨fun ops => ?_, fun i comment => ⟨?_, ?_⟩⟩
  · induction ops with
    | nil => rfl
    | cons i rest ih =>
      rw [List.map_cons, assemble, assembleLine_mnemonic, ih]
      rfl
  · exact assembleLine_of_stripLine
      (by simpa using stripLine_mnemonic i 0 (rest := ';' :: comment) rfl)
  · exact assembleLine_of_stripLine
      (by simpa using stripLine_mnemonic i 1 (rest := ';' :: comment) rfl)

/-! The pseudo-operations -/

/-- After an operation that SAMPLE follows, any number of frames keeps the next-stage order. -/
theorem chained_frames (k : Nat) {i : Instr} (hi : i.follows = .sample) :
    chained (i :: (List.replicate k frameOps).flatten) = true := by
  induction k generalizing i with
  | zero => rfl
  | succ k ih =>
    have htrace : chained (.trace :: (List.replicate k frameOps).flatten) = true := ih rfl
    rw [List.replicate_succ, List.flatten_cons]
    change (decide (Instr.sample = i.follows) && chained (.trace :: (List.replicate k frameOps).flatten)) = true
    rw [hi, htrace]
    rfl

theorem length_frames (k : Nat) : (List.replicate k frameOps).flatten.length = 8 * k := by
  rw [List.length_flatten, List.map_replicate, List.sum_replicate_nat]
  exact Nat.mul_comm k 8

/-- Settles O8, by induction on the number of frames. -/
theorem runPseudoOpIsProgram : Obligations.RunPseudoOpIsProgram := by
  intro k
  refine ⟨?wf, ?length, ?succ⟩
  case wf =>
    simpa [Pseudo.expand, bootOps, programWf, chained, Instr.follows] using
      chained_frames k (i := .banner) rfl
  case length =>
    rw [Pseudo.expand, List.length_append, length_frames]
    rfl
  case succ =>
    simp only [Pseudo.expand]
    rw [List.replicate_succ', List.flatten_append, List.flatten_singleton, List.append_assoc]

end Sys2Proof
end

section
/-! PROOF. What rounding keeps of a bound, and the ranges of the window, the ROM, the energy and the smoothed
energy in binary64 (00_scope.md R16; 42_window_table.md R132; 46_energy_integrator.md R194;
47_agc_smoother.md R207). -/

namespace Sys2Proof.Machine

/-! Bounds that are magnitudes of the format -/

/-- An integer of at most 53 bits times a power of 2 is a magnitude of the format. -/
theorem F64.exists_fieldsMag_shift {k j : Nat} (hk : k < 2 ^ 53) (hj : j ≤ 900) :
    ∃ w, w < 2047 * 2 ^ 52 ∧ k * 2 ^ j * F64.scale = F64.fieldsMag w := by
  obtain rfl | hpos := Nat.eq_zero_or_pos k
  · exact ⟨0, by norm_num, by simp [F64.fieldsMag]⟩
  obtain ⟨w, -, hmag⟩ := F64.exists_fieldsMag_eq hk
  have hnormal : 2 ^ 52 ≤ w := by
    by_contra hlt
    rw [F64.fieldsMag_small (by omega)] at hmag
    have hle : F64.scale ≤ k * F64.scale := Nat.le_mul_of_pos_left _ hpos
    have hbig : 2 ^ 52 ≤ F64.scale := by
      rw [F64.scale, show 1074 = 52 + 1022 from rfl, pow_add]
      exact Nat.le_mul_of_pos_right _ (by positivity)
    omega
  obtain ⟨e, m, rfl, hlo, hhi⟩ : ∃ e m, w = e * 2 ^ 52 + m ∧ 2 ^ 52 ≤ m ∧ m < 2 ^ 53 :=
    ⟨w / 2 ^ 52 - 1, 2 ^ 52 + w % 2 ^ 52, by omega, by omega, by omega⟩
  rw [F64.fieldsMag_normal hlo hhi.le] at hmag
  have hexp : e < 1075 := by
    have hlt : 2 ^ (52 + e) < 2 ^ 1127 :=
      calc 2 ^ (52 + e) = 2 ^ 52 * 2 ^ e := pow_add _ _ _
        _ ≤ m * 2 ^ e := Nat.mul_le_mul_right _ hlo
        _ = k * F64.scale := hmag.symm
        _ < 2 ^ 53 * F64.scale := Nat.mul_lt_mul_of_pos_right hk F64.scale_pos
        _ = 2 ^ 1127 := by rw [F64.scale, ← pow_add]
    have := (Nat.pow_lt_pow_iff_right (by norm_num)).1 hlt
    omega
  refine ⟨(e + j) * 2 ^ 52 + m, by omega, ?_⟩
  rw [F64.fieldsMag_normal hlo hhi.le, pow_add, ← mul_assoc, ← hmag]
  ring

/-- A quotient up to `k · 2^j` rounds to a finite word up to `k · 2^j`. -/
theorem F64.IsRounding.mag_le {z : Int} {d : Nat} {r : NumWord} (h : F64.IsRounding z d r) (hd : 0 < d)
    {k j : Nat} (hk : k < 2 ^ 53) (hj : j ≤ 900) (hz : z.natAbs ≤ k * 2 ^ j * F64.scale * d) :
    F64.isFinite r = true ∧ F64.mag r ≤ k * 2 ^ j * F64.scale := by
  obtain ⟨w, hw, hmag⟩ := F64.exists_fieldsMag_shift hk hj
  rw [hmag] at hz ⊢
  have hround : F64.roundMag z.natAbs d ≤ w := F64.roundMag_le hd hw.le hz
  exact ⟨(F64.isFinite_iff r).2 (by rw [h.fields]; omega), by rw [h.mag, F64.fieldsMag_le]; exact hround⟩

/-- A quotient between two others rounds to a finite word between their roundings. -/
theorem F64.IsRounding.within {z lo hi : Int} {d : Nat} {r a b : NumWord} (h : F64.IsRounding z d r)
    (ha : F64.IsRounding lo d a) (hb : F64.IsRounding hi d b) (hd : 0 < d)
    (hfa : F64.isFinite a = true) (hfb : F64.isFinite b = true) (hlo : lo ≤ z) (hhi : z ≤ hi) :
    F64.within a b r := by
  refine ⟨?_, ha.mono h hd hlo, h.mono hb hd hhi⟩
  rw [F64.isFinite_iff] at hfa hfb ⊢
  rw [ha.fields] at hfa
  rw [hb.fields] at hfb
  rw [h.fields]
  obtain hle | hle : z.natAbs ≤ lo.natAbs ∨ z.natAbs ≤ hi.natAbs := by omega
  · exact (F64.roundMag_mono hd hd (Nat.mul_le_mul_right d hle)).trans_lt hfa
  · exact (F64.roundMag_mono hd hd (Nat.mul_le_mul_right d hle)).trans_lt hfb

/-! Magnitudes up to a power of 2 -/

theorem F64.IsRounding.boundedBy {z : Int} {d : Nat} {r : NumWord} (h : F64.IsRounding z d r) (hd : 0 < d)
    {k : Nat} (hk : k ≤ 900) (hz : z.natAbs ≤ 2 ^ k * F64.scale * d) : F64.boundedBy k r := by
  have := h.mag_le hd (k := 1) (by norm_num) hk (by rwa [one_mul])
  rwa [one_mul] at this

/-- A number in `[−1, 1]`. -/
theorem F64.boundedBy_zero_iff {x : NumWord} :
    F64.boundedBy 0 x ↔ F64.isFinite x = true ∧ F64.mag x ≤ F64.scale := by
  rw [F64.boundedBy, pow_zero, one_mul]

theorem F64.boundedBy_mono {j k : Nat} (hjk : j ≤ k) {x : NumWord} (h : F64.boundedBy j x) :
    F64.boundedBy k x :=
  ⟨h.1, h.2.trans (Nat.mul_le_mul_right _ (Nat.pow_le_pow_right two_pos hjk))⟩

theorem F64.isZero.boundedBy {x : NumWord} (h : F64.isZero x) (k : Nat) : F64.boundedBy k x :=
  ⟨h.1, by rw [h.2]; exact Nat.zero_le _⟩

theorem F64.boundedBy_neg {k : Nat} {x : NumWord} (h : F64.boundedBy k x) : F64.boundedBy k (F64.neg x) :=
  ⟨F64.isFinite_neg h.1, by rw [← F64.natAbs_val, F64.val_neg, Int.natAbs_neg, F64.natAbs_val]; exact h.2⟩

theorem F64.boundedBy_add {k : Nat} (hk : k < 900) {a b : NumWord} (ha : F64.boundedBy k a)
    (hb : F64.boundedBy k b) : F64.boundedBy (k + 1) (F64.add a b) := by
  refine (F64.isRounding_add ha.1 hb.1).boundedBy one_pos hk ?_
  calc (F64.val a + F64.val b).natAbs ≤ F64.mag a + F64.mag b := by
        rw [← F64.natAbs_val a, ← F64.natAbs_val b]; exact Int.natAbs_add_le _ _
    _ ≤ 2 ^ k * F64.scale + 2 ^ k * F64.scale := Nat.add_le_add ha.2 hb.2
    _ = 2 ^ (k + 1) * F64.scale * 1 := by ring

theorem F64.boundedBy_sub {k : Nat} (hk : k < 900) {a b : NumWord} (ha : F64.boundedBy k a)
    (hb : F64.boundedBy k b) : F64.boundedBy (k + 1) (F64.sub a b) :=
  F64.boundedBy_add hk ha (F64.boundedBy_neg hb)

theorem F64.boundedBy_mul {j k : Nat} (hjk : j + k ≤ 900) {a b : NumWord} (ha : F64.boundedBy j a)
    (hb : F64.boundedBy k b) : F64.boundedBy (j + k) (F64.mul a b) := by
  refine (F64.isRounding_mul ha.1 hb.1).boundedBy F64.scale_pos hjk ?_
  rw [Int.natAbs_mul, F64.natAbs_val, F64.natAbs_val]
  calc F64.mag a * F64.mag b ≤ 2 ^ j * F64.scale * (2 ^ k * F64.scale) := Nat.mul_le_mul ha.2 hb.2
    _ = 2 ^ (j + k) * F64.scale * F64.scale := by ring

theorem F64.square_nonneg {a : NumWord} (ha : F64.isFinite a = true) : 0 ≤ F64.val (F64.mul a a) :=
  (F64.isRounding_mul ha ha).nonneg (mul_self_nonneg _)

/-- The root of a number up to `2^2k` is at most `2^k`. -/
theorem F64.boundedBy_sqrt {k : Nat} (hk : k ≤ 900) {a : NumWord} (ha : F64.boundedBy (2 * k) a)
    (h0 : 0 ≤ F64.val a) : F64.boundedBy k (F64.sqrt a) := by
  refine ⟨(F64.sqrt_nonneg ha.1 h0).1, ?_⟩
  rcases F64.sqrt_cases ha.1 h0 with ⟨hmag, hroot⟩ | ⟨hmag, hroot⟩
  · rw [hroot, hmag]
    exact Nat.zero_le _
  · rw [hroot, F64.mag_eq]
    obtain ⟨-, -, hbetween⟩ := F64.sqrtRound_spec hmag
    obtain ⟨w, -, hw⟩ := F64.exists_fieldsMag_shift (k := 1) (by norm_num) hk
    rw [one_mul] at hw
    rw [hw, F64.fieldsMag_le]
    -- a rounding above `2^k` would lie past the midpoint above the root
    by_contra! hlt
    have hle : Real.sqrt ((F64.mag a : ℝ) * F64.scale) ≤ F64.fieldsMag w := by
      rw [Real.sqrt_le_left (Nat.cast_nonneg _), ← hw]
      have hsq : F64.mag a * F64.scale ≤ (2 ^ k * F64.scale) ^ 2 :=
        calc F64.mag a * F64.scale ≤ 2 ^ (2 * k) * F64.scale * F64.scale := Nat.mul_le_mul_right _ ha.2
          _ = (2 ^ k * F64.scale) ^ 2 := by ring
      exact_mod_cast hsq
    have hmid := hbetween.midpoint.2 hlt
    have hmono : (F64.fieldsMag w : ℝ) < F64.fieldsMag ((F64.sqrtRound a).toNat % 2 ^ 63) := by
      exact_mod_cast F64.fieldsMag_strictMono hlt
    linarith

/-! Ranges from 0 -/

@[simp] theorem F64.val_zero : F64.val F64.zero = 0 := by decide +kernel

theorem F64.val_one : F64.val F64.one = F64.scale := by decide +kernel

theorem Numeric.zero_num : Numeric.zero num = F64.zero := by decide +kernel

theorem Numeric.one_num : Numeric.one num = F64.one := by decide +kernel

theorem F64.isZero_zero : F64.isZero F64.zero := ⟨by decide, by decide +kernel⟩

/-- A number that is not negative, of a magnitude up to that of another. -/
theorem F64.within_zero_of_mag_le {x b : NumWord} (hf : F64.isFinite x = true) (h0 : 0 ≤ F64.val x)
    (hb0 : 0 ≤ F64.val b) (hb : F64.mag x ≤ F64.mag b) : F64.within F64.zero b x := by
  refine ⟨hf, by rwa [F64.val_zero], ?_⟩
  rw [← F64.natAbs_val x, ← F64.natAbs_val b] at hb
  omega

theorem F64.within.mag_le {x b : NumWord} (h : F64.within F64.zero b x) : F64.mag x ≤ F64.mag b := by
  obtain ⟨-, hlo, hhi⟩ := h
  rw [F64.val_zero] at hlo
  rw [← F64.natAbs_val x, ← F64.natAbs_val b]
  omega

theorem F64.mag_one : F64.mag F64.one = F64.scale := by decide +kernel

theorem F64.within.boundedBy_one {x : NumWord} (h : F64.within F64.zero F64.one x) : F64.boundedBy 0 x :=
  F64.boundedBy_zero_iff.2 ⟨h.1, F64.mag_one ▸ h.mag_le⟩

/-- The product with a constant that is not negative keeps a range from 0. -/
theorem F64.within_mul {c b x : NumWord} (hc : F64.isFinite c = true) (hc0 : 0 ≤ F64.val c)
    (hb : F64.isFinite b = true) (hcb : F64.isFinite (F64.mul c b) = true)
    (hx : F64.within F64.zero b x) : F64.within F64.zero (F64.mul c b) (F64.mul c x) := by
  obtain ⟨hfx, hlo, hhi⟩ := hx
  have hzero : F64.IsRounding 0 F64.scale F64.zero := ⟨by simp [F64.zero], fun _ => le_rfl, fun _ => le_rfl⟩
  rw [F64.val_zero] at hlo
  exact (F64.isRounding_mul hc hfx).within hzero (F64.isRounding_mul hc hb) F64.scale_pos rfl hcb
    (mul_nonneg hc0 hlo) (mul_le_mul_of_nonneg_left hhi hc0)

theorem F64.within_add {a b x y : NumWord} (ha : F64.isFinite a = true) (hb : F64.isFinite b = true)
    (hab : F64.isFinite (F64.add a b) = true) (hx : F64.within F64.zero a x)
    (hy : F64.within F64.zero b y) : F64.within F64.zero (F64.add a b) (F64.add x y) := by
  obtain ⟨hfx, hxlo, hxhi⟩ := hx
  obtain ⟨hfy, hylo, hyhi⟩ := hy
  have hzero : F64.IsRounding 0 1 F64.zero := ⟨by simp [F64.zero], fun _ => le_rfl, fun _ => le_rfl⟩
  rw [F64.val_zero] at hxlo hylo
  exact (F64.isRounding_add hfx hfy).within hzero (F64.isRounding_add ha hb) one_pos rfl hab
    (add_nonneg hxlo hylo) (add_le_add hxhi hyhi)

/-! The library's functions, the window and the ROM -/

theorem F64.fieldsMag_one : F64.fieldsMag F64.one.toNat = F64.scale := by decide +kernel

/-- A library's value lies in `[−1, 1]` (U3). -/
theorem Trig.boundedBy_lastPlace (d : Config.LastPlace) (y : NumWord) :
    F64.boundedBy 0 (Trig.lastPlace d y) := by
  have hone : F64.one.toNat < 2047 * 2 ^ 52 := by decide
  have hmin := min_le_right (Trig.lastPlaceFields d (y.toNat % 2 ^ 63)) F64.one.toNat
  unfold Trig.lastPlace
  generalize min (Trig.lastPlaceFields d (y.toNat % 2 ^ 63)) F64.one.toNat = m at *
  have hm : m < 2 ^ 63 := by omega
  refine F64.boundedBy_zero_iff.2 ⟨(F64.isFinite_pack _ _ hm).2 (by omega), ?_⟩
  rw [F64.mag_pack _ _ hm, ← F64.fieldsMag_one, F64.fieldsMag_le]
  exact hmin

theorem Trig.boundedBy_cos (x : NumWord) : F64.boundedBy 0 (Trig.cos x) := by
  unfold Trig.cos
  split
  · exact F64.boundedBy_zero_iff.2 ⟨by decide, F64.mag_one.le⟩
  · exact Trig.boundedBy_lastPlace _ _

theorem F64.isZero_of_mag {x : NumWord} (h : F64.mag x = 0) : F64.isZero x := by
  refine ⟨?_, h⟩
  rw [F64.mag_eq] at h
  have hfields : x.toNat % 2 ^ 63 = 0 := F64.fieldsMag_strictMono.injective h
  rw [F64.isFinite_iff, hfields]
  norm_num

theorem Trig.boundedBy_sin (x : NumWord) : F64.boundedBy 0 (Trig.sin x) := by
  unfold Trig.sin
  split
  · rename_i h
    exact (F64.isZero_of_mag h).boundedBy 0
  · exact Trig.boundedBy_lastPlace _ _

/-- Every coefficient of the window lies in `[0, 1]` (42_window_table.md R132 (a)): `1 − cos` lies in
`[0, 2]`, and its half is at most half of 2. -/
theorem hannCoeff_within (len n : Nat) : F64.within F64.zero F64.one (hannCoeff num len n) := by
  have hcos := Trig.boundedBy_cos (Numeric.angle num n (len - 1))
  have hone : F64.isFinite F64.one = true := by decide
  have hsub := F64.isRounding_sub hone hcos.1
  have hrange : |F64.val (Trig.cos (Numeric.angle num n (len - 1)))| ≤ F64.scale := by
    rw [Int.abs_eq_natAbs, F64.natAbs_val]
    exact_mod_cast (F64.boundedBy_zero_iff.1 hcos).2
  obtain ⟨hlo, hhi⟩ := abs_le.1 hrange
  rw [F64.val_one] at hsub
  have hnonneg := hsub.nonneg (by omega)
  have htwo : F64.boundedBy 1 (F64.sub F64.one (Trig.cos (Numeric.angle num n (len - 1)))) :=
    hsub.boundedBy one_pos (by norm_num) (by omega)
  have hmag : F64.mag (F64.ofInt 2) = 2 ^ 1 * F64.scale := by decide +kernel
  have hdiff := F64.within_zero_of_mag_le (b := F64.ofInt 2) htwo.1 hnonneg (by decide +kernel)
    (by rw [hmag]; exact htwo.2)
  have hhalf : F64.mul (F64.ofRatio 1 2) (F64.ofInt 2) = F64.one := by decide +kernel
  have := F64.within_mul (c := F64.ofRatio 1 2) (by decide +kernel) (by decide +kernel) (by decide +kernel)
    (by rw [hhalf]; exact hone) hdiff
  rw [hhalf] at this
  rwa [hannCoeff, Numeric.one_num, Numeric.half, num_mul, num_sub, num_cos, num_ofRatio]

theorem hannTable_within (len : Nat) : ∀ x ∈ hannTable num len, F64.within F64.zero F64.one x := by
  intro x hx
  obtain ⟨n, -, rfl⟩ := List.mem_map.1 hx
  exact hannCoeff_within len n

theorem length_hannTable {α : Type} (A : Config.Arith α) (len : Nat) : (hannTable A len).length = len := by
  rw [hannTable, List.length_map, List.length_range]

end Sys2Proof.Machine
end

section
/-! PROOF. The transform of a bounded frame is bounded: each stage makes the words at most four times as
large (44_fft.md R165, R170, with the model's coarse bounds, log 31). -/

namespace Sys2Proof.Machine

/-! Words of arrays -/

/-- What holds of every word of an array and of zero holds at every index. -/
theorem wordAt_of_forall {P : NumWord → Prop} {a : List NumWord} (h : ∀ x ∈ a, P x) (h0 : P F64.zero)
    (i : Nat) : P (wordAt num a i) := by
  rw [wordAt, Numeric.zero_num, List.getD_eq_getElem?_getD]
  cases hi : a[i]? with
  | none => exact h0
  | some x => exact h x (List.mem_of_getElem? hi)

theorem exists_wordAt_of_mem {a : List NumWord} {x : NumWord} (h : x ∈ a) :
    ∃ i, i < a.length ∧ wordAt num a i = x := by
  obtain ⟨i, hi, rfl⟩ := List.getElem_of_mem h
  exact ⟨i, hi, List.getD_eq_getElem _ _ hi⟩

theorem wordAt_set_ne {a : List NumWord} {i j : Nat} (h : i ≠ j) (v : NumWord) :
    wordAt num (a.set i v) j = wordAt num a j := by
  simp [wordAt, List.getElem?_set_ne h]

theorem wordAt_set_self {a : List NumWord} {i : Nat} (hi : i < a.length) (v : NumWord) :
    wordAt num (a.set i v) i = v := by
  simp [wordAt, hi]

/-- The word written, or nothing where the index lies outside. -/
theorem wordAt_set_of {P : NumWord → Prop} (a : List NumWord) (i : Nat) {v : NumWord} (hv : P v)
    (h0 : P F64.zero) : P (wordAt num (a.set i v) i) := by
  by_cases hi : i < a.length
  · rwa [wordAt_set_self hi]
  · rwa [wordAt, List.getD_eq_default _ _ (by rw [List.length_set]; omega), Numeric.zero_num]

/-- What a loop's body keeps from one index to the next holds after the loop. -/
theorem foldl_range_induction {α : Type} {P : Nat → α → Prop} {f : α → Nat → α} (n : Nat) {a : α}
    (h0 : P 0 a) (hstep : ∀ i b, i < n → P i b → P (i + 1) (f b i)) :
    P n ((List.range n).foldl f a) := by
  induction n with
  | zero => exact h0
  | succ n ih =>
    rw [List.range_succ, List.foldl_append]
    exact hstep n _ (Nat.lt_succ_self n) (ih fun i b hi => hstep i b (Nat.lt_succ_of_lt hi))

/-! Bounded buffers -/

/-- Frame buffers of `n` words each, word `i` of magnitude at most `2^(b i)`. -/
structure Complexes.Bounded (n : Nat) (b : Nat → Nat) (f : Complexes NumWord) : Prop where
  re_length : f.re.length = n
  im_length : f.im.length = n
  re_bounded : ∀ i, F64.boundedBy (b i) (wordAt num f.re i)
  im_bounded : ∀ i, F64.boundedBy (b i) (wordAt num f.im i)

theorem boundedBy_zero (k : Nat) : F64.boundedBy k F64.zero := F64.isZero_zero.boundedBy k

theorem Complexes.Bounded.mono {n : Nat} {b c : Nat → Nat} {f : Complexes NumWord} (h : f.Bounded n b)
    (hbc : ∀ i, b i ≤ c i) : f.Bounded n c where
  re_length := h.re_length
  im_length := h.im_length
  re_bounded i := F64.boundedBy_mono (hbc i) (h.re_bounded i)
  im_bounded i := F64.boundedBy_mono (hbc i) (h.im_bounded i)

/-- Two words of an array replaced. -/
theorem boundedBy_set_set {a : List NumWord} {b c : Nat → Nat} {i j : Nat} {v w : NumWord}
    (ha : ∀ k, F64.boundedBy (b k) (wordAt num a k)) (hv : F64.boundedBy (c i) v)
    (hw : F64.boundedBy (c j) w) (hbc : ∀ k, k ≠ i → k ≠ j → b k ≤ c k) (k : Nat) :
    F64.boundedBy (c k) (wordAt num ((a.set i v).set j w) k) := by
  obtain rfl | hj := eq_or_ne j k
  · exact wordAt_set_of _ _ hw (boundedBy_zero _)
  rw [wordAt_set_ne hj]
  obtain rfl | hi := eq_or_ne i k
  · exact wordAt_set_of _ _ hv (boundedBy_zero _)
  rw [wordAt_set_ne hi]
  exact F64.boundedBy_mono (hbc k hi.symm hj.symm) (ha k)

/-! The permutation -/

theorem Complexes.Bounded.reverseStep {n k L : Nat} {f : Complexes NumWord}
    (h : f.Bounded n fun _ => k) (i : Nat) : (reverseStep num L f i).Bounded n fun _ => k := by
  unfold Machine.reverseStep
  split
  · exact
      { re_length := by simp [swapWords, h.re_length]
        im_length := by simp [swapWords, h.im_length]
        re_bounded := boundedBy_set_set h.re_bounded (h.re_bounded _) (h.re_bounded _) fun _ _ _ => le_rfl
        im_bounded := boundedBy_set_set h.im_bounded (h.im_bounded _) (h.im_bounded _) fun _ _ _ => le_rfl }
  · exact h

theorem Complexes.Bounded.bitReverse {n k : Nat} (L : Nat) {f : Complexes NumWord}
    (h : f.Bounded n fun _ => k) : (bitReverse num L f).Bounded n fun _ => k :=
  foldl_range_induction (P := fun _ (g : Complexes NumWord) => g.Bounded n fun _ => k) _ h
    fun i _ _ hg => hg.reverseStep i

/-! The butterflies -/

/-- Twiddle factors in `[−1, 1]`. -/
structure Twiddles.Unit (tw : Twiddles NumWord) : Prop where
  re_unit : ∀ i, F64.boundedBy 0 (wordAt num tw.re i)
  im_unit : ∀ i, F64.boundedBy 0 (wordAt num tw.im i)

theorem boundedBy_twist {k : Nat} (hk : k < 900) {wr wi br bi : NumWord} (hwr : F64.boundedBy 0 wr)
    (hwi : F64.boundedBy 0 wi) (hbr : F64.boundedBy k br) (hbi : F64.boundedBy k bi) :
    F64.boundedBy (k + 1) (twistRe num wr wi br bi) ∧ F64.boundedBy (k + 1) (twistIm num wr wi br bi) := by
  have hmul : ∀ {w x : NumWord}, F64.boundedBy 0 w → F64.boundedBy k x → F64.boundedBy k (F64.mul w x) :=
    fun hw hx => by simpa using F64.boundedBy_mul (by omega) hw hx
  exact ⟨F64.boundedBy_sub hk (hmul hwr hbr) (hmul hwi hbi),
    F64.boundedBy_add hk (hmul hwr hbi) (hmul hwi hbr)⟩

/-- A butterfly makes its two words at most four times as large. -/
theorem Complexes.Bounded.butterfly {n k p q : Nat} {b c : Nat → Nat} {wr wi : NumWord}
    {f : Complexes NumWord} (h : f.Bounded n b) (hk : k < 890) (hwr : F64.boundedBy 0 wr)
    (hwi : F64.boundedBy 0 wi) (hp : b p ≤ k) (hq : b q ≤ k) (hcp : k + 2 ≤ c p) (hcq : k + 2 ≤ c q)
    (hbc : ∀ i, i ≠ p → i ≠ q → b i ≤ c i) : (butterfly num wr wi p q f).Bounded n c := by
  obtain ⟨htr, hti⟩ := boundedBy_twist (by omega) hwr hwi (F64.boundedBy_mono hq (h.re_bounded q))
    (F64.boundedBy_mono hq (h.im_bounded q))
  have hre := F64.boundedBy_mono (hp.trans (Nat.le_succ k)) (h.re_bounded p)
  have him := F64.boundedBy_mono (hp.trans (Nat.le_succ k)) (h.im_bounded p)
  exact
    { re_length := by rw [Machine.butterfly, List.length_set, List.length_set, h.re_length]
      im_length := by rw [Machine.butterfly, List.length_set, List.length_set, h.im_length]
      re_bounded := boundedBy_set_set h.re_bounded
        (F64.boundedBy_mono hcq (F64.boundedBy_sub (by omega) hre htr))
        (F64.boundedBy_mono hcp (F64.boundedBy_add (by omega) hre htr)) fun i hiq hip => hbc i hip hiq
      im_bounded := boundedBy_set_set h.im_bounded
        (F64.boundedBy_mono hcq (F64.boundedBy_sub (by omega) him hti))
        (F64.boundedBy_mono hcp (F64.boundedBy_add (by omega) him hti)) fun i hiq hip => hbc i hip hiq }

/-- The bounds in the middle of a stage: `j` butterflies of the block at word `start` are done, and all
blocks before it. A word no butterfly of the stage has touched has still the bound `k`. -/
def stageBound (k half start j i : Nat) : Nat :=
  if (start + j ≤ i ∧ i < start + half) ∨ start + half + j ≤ i then k else k + 2

theorem Complexes.Bounded.fftBlock {n k L s start : Nat} {tw : Twiddles NumWord} {f : Complexes NumWord}
    (hk : k < 890) (htw : tw.Unit) (h : f.Bounded n (stageBound k (2 ^ (s - 1)) start 0)) :
    (fftBlock num L tw s start f).Bounded n
      (stageBound k (2 ^ (s - 1)) start (2 ^ (s - 1))) := by
  refine foldl_range_induction
    (P := fun j (g : Complexes NumWord) => g.Bounded n (stageBound k (2 ^ (s - 1)) start j)) _ h
    fun j g hj hg => ?_
  generalize 2 ^ (s - 1) = half at *
  refine hg.butterfly hk (htw.re_unit _) (htw.im_unit _) ?_ ?_ ?_ ?_ fun i hp hq => ?_
  all_goals
    unfold stageBound
    split_ifs <;> omega

theorem Complexes.Bounded.fftStage {n k L s : Nat} (hs : 0 < s) {tw : Twiddles NumWord}
    {f : Complexes NumWord} (hk : k < 890) (htw : tw.Unit) (h : f.Bounded n fun _ => k) :
    (fftStage num L tw f s).Bounded n fun _ => k + 2 := by
  have hhalf : 2 ^ s = 2 ^ (s - 1) + 2 ^ (s - 1) := by
    rw [← mul_two, ← pow_succ, Nat.sub_add_cancel hs]
  -- the block that ends at word `start + 2 ^ s` is followed by the one that starts there
  have hnext : ∀ start i, stageBound k (2 ^ (s - 1)) start (2 ^ (s - 1)) i ≤
      stageBound k (2 ^ (s - 1)) (start + 2 ^ s) 0 i := by
    intro start i
    unfold stageBound
    generalize 2 ^ (s - 1) = half at *
    generalize 2 ^ s = m at *
    split_ifs <;> omega
  have hfirst : f.Bounded n (stageBound k (2 ^ (s - 1)) (0 * 2 ^ s) 0) :=
    h.mono fun i => by unfold stageBound; split_ifs <;> omega
  have hall : (Machine.fftStage num L tw f s).Bounded n
      (stageBound k (2 ^ (s - 1)) (2 ^ (L - s) * 2 ^ s) 0) := by
    refine foldl_range_induction
      (P := fun q (g : Complexes NumWord) => g.Bounded n (stageBound k (2 ^ (s - 1)) (q * 2 ^ s) 0))
      _ hfirst fun q g _ hg => ?_
    rw [Nat.succ_mul]
    exact (hg.fftBlock hk htw).mono (hnext _)
  refine hall.mono fun i => ?_
  unfold stageBound
  split_ifs <;> omega

theorem Complexes.Bounded.fftStages {n k L : Nat} {tw : Twiddles NumWord} {f : Complexes NumWord}
    (hk : k + 2 * L < 890) (htw : tw.Unit) (h : f.Bounded n fun _ => k) :
    (fftStages num L tw f).Bounded n fun _ => k + 2 * L :=
  foldl_range_induction (P := fun s (g : Complexes NumWord) => g.Bounded n fun _ => k + 2 * s) L h
    fun s _ hs hg => hg.fftStage (k := k + 2 * s) s.succ_pos (by omega) htw

/-! The magnitudes -/

theorem boundedBy_magnitude {k : Nat} (hk : k < 440) {re im : NumWord} (hre : F64.boundedBy k re)
    (him : F64.boundedBy k im) : F64.boundedBy (k + 1) (magnitude num re im) := by
  have hre2 := F64.boundedBy_mul (by omega) hre hre
  have him2 := F64.boundedBy_mul (by omega) him him
  exact F64.boundedBy_sqrt (by omega)
    (F64.boundedBy_mono (by omega) (F64.boundedBy_add (by omega) hre2 him2))
    ((F64.isRounding_add hre2.1 him2.1).nonneg
      (add_nonneg (F64.square_nonneg hre.1) (F64.square_nonneg him.1)))

/-- The transform of words up to `2^k` answers magnitudes up to `2^(k + 2L + 1)`. -/
theorem boundedBy_fft {n k L : Nat} {tw : Twiddles NumWord} {f : Complexes NumWord}
    (hk : k + 2 * L < 440) (htw : tw.Unit) (h : f.Bounded n fun _ => k) :
    (fft num L tw f).re.length = n ∧ (fft num L tw f).im.length = n ∧
      ∀ x ∈ (fft num L tw f).re, F64.boundedBy (k + 2 * L + 1) x := by
  have hg := (h.bitReverse L).fftStages (L := L) (by omega) htw
  rw [fft]
  generalize Machine.fftStages num L tw (bitReverse num L f) = g at *
  refine ⟨by rw [magnitudes, List.length_zipWith, hg.re_length, hg.im_length, min_self], hg.im_length, ?_⟩
  intro x hx
  obtain ⟨i, hi, rfl⟩ := List.getElem_of_mem hx
  rw [magnitudes, List.length_zipWith, lt_min_iff] at hi
  simp only [magnitudes, List.getElem_zipWith]
  rw [← List.getD_eq_getElem g.re (Numeric.zero num) hi.1,
    ← List.getD_eq_getElem g.im (Numeric.zero num) hi.2]
  exact boundedBy_magnitude (by omega) (hg.re_bounded i) (hg.im_bounded i)

/-! The ROM -/

/-- The ROM's factors lie in `[−1, 1]` (44_fft.md R164, U3). -/
theorem Twiddles.unit_rom (len : Nat) : Twiddles.Unit ⟨twiddleRe num len, twiddleIm num len⟩ where
  re_unit := wordAt_of_forall (fun x hx => by
    obtain ⟨k, -, rfl⟩ := List.mem_map.1 hx
    rw [num_cos]
    exact Trig.boundedBy_cos _) (boundedBy_zero 0)
  im_unit := wordAt_of_forall (fun x hx => by
    obtain ⟨k, -, rfl⟩ := List.mem_map.1 hx
    rw [num_neg, num_sin]
    exact F64.boundedBy_neg (Trig.boundedBy_sin _)) (boundedBy_zero 0)

end Sys2Proof.Machine
end

section
/-! PROOF. The operations that compute in binary64 keep the ranges of their results (42_window_table.md R132;
43_sampler.md R144; 46_energy_integrator.md R194; 47_agc_smoother.md R207). -/

namespace Sys2Proof.Machine

/-! The energy -/

/-- The sum of the squares of words up to `2^26` is at most their number times `2^52`. -/
theorem sumSquares_bounded (m : List NumWord) (hm : ∀ x ∈ m, F64.boundedBy 26 x)
    (hlen : m.length < 2 ^ 53) :
    F64.isFinite (sumSquares num m) = true ∧ 0 ≤ F64.val (sumSquares num m) ∧
      F64.mag (sumSquares num m) ≤ m.length * 2 ^ 52 * F64.scale := by
  induction m using List.reverseRecOn with
  | nil =>
    rw [sumSquares, List.foldl_nil, Numeric.zero_num, F64.val_zero, F64.isZero_zero.2]
    exact ⟨F64.isZero_zero.1, le_rfl, Nat.zero_le _⟩
  | append_singleton m x ih =>
    rw [List.length_append, List.length_singleton] at hlen ⊢
    obtain ⟨hfin, hnonneg, hmag⟩ := ih (fun y hy => hm y (List.mem_append_left _ hy)) (by omega)
    have hx : F64.boundedBy 26 x := hm x (by simp)
    have hsquare : F64.boundedBy 52 (F64.mul x x) :=
      F64.boundedBy_mul (j := 26) (k := 26) (by norm_num) hx hx
    have hsum : sumSquares num (m ++ [x]) = F64.add (sumSquares num m) (F64.mul x x) := by
      rw [sumSquares, List.foldl_append]
      rfl
    have hround := F64.isRounding_add hfin hsquare.1
    rw [hsum]
    have hle : (F64.val (sumSquares num m) + F64.val (F64.mul x x)).natAbs ≤
        (m.length + 1) * 2 ^ 52 * F64.scale * 1 :=
      calc _ ≤ F64.mag (sumSquares num m) + F64.mag (F64.mul x x) := by
            rw [← F64.natAbs_val (sumSquares num m), ← F64.natAbs_val (F64.mul x x)]
            exact Int.natAbs_add_le _ _
        _ ≤ m.length * 2 ^ 52 * F64.scale + 2 ^ 52 * F64.scale := Nat.add_le_add hmag hsquare.2
        _ = _ := by ring
    obtain ⟨hf, hm'⟩ := hround.mag_le one_pos hlen (by norm_num) hle
    exact ⟨hf, hround.nonneg (add_nonneg hnonneg (F64.square_nonneg hx.1)), hm'⟩

theorem F64.mag_pow52 : F64.mag F64.pow52 = 2 ^ 52 * F64.scale := by decide +kernel

/-- A sum of `n` numbers up to `2^52` divided by `n` is at most `2^52`. -/
theorem F64.within_div_ofInt {a : NumWord} {n : Nat} (hn : 0 < n) (hn' : n < 2 ^ 53)
    (hf : F64.isFinite a = true) (h0 : 0 ≤ F64.val a) (ha : F64.mag a ≤ n * 2 ^ 52 * F64.scale) :
    F64.within F64.zero F64.pow52 (F64.div a (F64.ofInt n)) := by
  obtain ⟨hfin, hrat⟩ := F64.ofInt_exact (k := n) (by simpa using hn')
  have hval : F64.val (F64.ofInt n) = (n * F64.scale : Nat) := by
    have := F64.toRat_mul_scale (F64.ofInt n)
    rw [hrat] at this
    exact_mod_cast this.symm
  have hmag : F64.mag (F64.ofInt n) = n * F64.scale := by rw [← F64.natAbs_val, hval, Int.natAbs_natCast]
  have hpos : 0 < n * F64.scale := Nat.mul_pos hn F64.scale_pos
  have hround := F64.isRounding_div hf hfin (by omega)
  rw [hval, hmag, Int.sign_eq_one_of_pos (by exact_mod_cast hpos), mul_one] at hround
  have hle : (F64.val a * F64.scale).natAbs ≤ 2 ^ 52 * F64.scale * (n * F64.scale) := by
    rw [Int.natAbs_mul, F64.natAbs_val, Int.natAbs_natCast]
    calc F64.mag a * F64.scale ≤ n * 2 ^ 52 * F64.scale * F64.scale := Nat.mul_le_mul_right _ ha
      _ = _ := by ring
  obtain ⟨hdiv, hbound⟩ := hround.boundedBy hpos (by norm_num) hle
  refine F64.within_zero_of_mag_le hdiv
    (hround.nonneg (mul_nonneg h0 (Int.natCast_nonneg _))) (by decide +kernel) ?_
  rwa [F64.mag_pow52]

/-- Over a band of words up to `2^26` the energy lies in `[0, 2^52]` (46_energy_integrator.md R194). -/
theorem bandEnergy_within {a : List NumWord} {lo hi : Nat} (ha : ∀ x ∈ a, F64.boundedBy 26 x)
    (hlo : lo ≤ hi) (hhi : hi < 2 ^ 52) : F64.within F64.zero F64.pow52 (bandEnergy num a lo hi) := by
  have hlen : (bandWords num a lo hi).length = hi + 1 - lo := by
    rw [bandWords, List.length_map, List.length_range]
  obtain ⟨hf, h0, hmag⟩ := sumSquares_bounded (bandWords num a lo hi) (fun x hx => by
    obtain ⟨k, -, rfl⟩ := List.mem_map.1 hx
    exact wordAt_of_forall ha (boundedBy_zero 26) _) (by omega)
  have hcount : (hi : Int) - lo + 1 = (hi + 1 - lo : Nat) := by omega
  rw [bandEnergy, hcount]
  exact F64.within_div_ofInt (by omega) (by omega) hf h0 (hlen ▸ hmag)

/-! The control loop -/

/-- The smoothed energy stays in the range of the energies (47_agc_smoother.md R201, R207): at the ends the
two weights add up to 1. -/
theorem smoothed_within {ema e : NumWord} (hema : F64.within F64.zero F64.pow52 ema)
    (he : F64.within F64.zero F64.pow52 e) : F64.within F64.zero F64.pow52 (smoothed num ema e) := by
  have hsum : F64.add (F64.mul (F64.sub F64.one (emaAlpha num)) F64.pow52)
      (F64.mul (emaAlpha num) F64.pow52) = F64.pow52 := by decide +kernel
  have h := F64.within_add (by decide +kernel) (by decide +kernel) (by rw [hsum]; decide +kernel)
    (F64.within_mul (c := F64.sub F64.one (emaAlpha num)) (by decide +kernel) (by decide +kernel)
      (by decide +kernel) (by decide +kernel) hema)
    (F64.within_mul (c := emaAlpha num) (by decide +kernel) (by decide +kernel) (by decide +kernel)
      (by decide +kernel) he)
  rw [hsum] at h
  rwa [smoothed, Numeric.one_num, num_add, num_mul, num_sub]

/-- The five steps, where AGC answers (47_agc_smoother.md R200). -/
theorem agcUpdate_some {ema gain e : NumWord} {c : Control NumWord}
    (h : agcUpdate num ema gain e = some c) :
    c.ema = smoothed num ema e ∧
      ∃ m, measured num (smoothed num ema e) gain = some m ∧ adaptedGain num gain m = some c.gain ∧
        levelOf num (smoothed num ema e) c.gain = some c.level := by
  unfold agcUpdate at h
  split at h
  · cases h
  · rename_i m hm
    split at h
    · cases h
    · rename_i g hg
      split at h
      · cases h
      · rename_i l hl
        cases h
        exact ⟨rfl, m, hm, hg, hl⟩

theorem adaptedGain_within {gain m g : NumWord} (h : adaptedGain num gain m = some g) :
    F64.within (agcMin num) (agcMax num) g :=
  Numeric.clamp_within h (by decide +kernel) (by decide +kernel) (by decide +kernel)

theorem levelOf_within {ema gain l : NumWord} (h : levelOf num ema gain = some l) :
    F64.within F64.zero F64.one l := by
  rw [levelOf, Numeric.zero_num, Numeric.one_num] at h
  exact Numeric.clamp_within h (by decide) (by decide) (by decide +kernel)

/-! The samples -/

/-- A windowed sample is at most `2^9` (43_sampler.md R144). -/
theorem boundedBy_windowedSample (raw : BitVec 10) {coeff : NumWord}
    (h : F64.within F64.zero F64.one coeff) : F64.boundedBy 9 (windowedSample num raw coeff) := by
  have hraw : raw.toNat < 1024 := raw.isLt
  have hcentered : (centered raw).natAbs ≤ 2 ^ 9 := by
    unfold centered Config.adcBias
    omega
  have hsample : F64.boundedBy 9 (F64.ofInt (centered raw)) := by
    refine (F64.isRounding_ofInt (centered raw)).boundedBy one_pos (by norm_num) ?_
    rw [Int.natAbs_mul, Int.natAbs_natCast, mul_one]
    exact Nat.mul_le_mul_right _ hcentered
  rw [windowedSample, num_mul, num_ofInt]
  exact F64.boundedBy_mul (j := 9) (k := 0) (by norm_num) hsample h.boundedBy_one

end Sys2Proof.Machine
end

section
/-! PROOF. The serial text is 7-bit, the band lies in its range, the timer keeps its turn, and the sampler
fills the frame (49_debug_trace.md R227; 45_band_selector.md R184; 41_pwm_driver.md R116;
43_sampler.md R140 to R145). -/

namespace Sys2Proof.Machine

/-! The text -/

/-- Every byte is a 7-bit character (49_debug_trace.md R227). -/
def SevenBit (text : List Byte) : Prop := ∀ c ∈ text, c.toNat < 128

@[simp] theorem sevenBit_nil : SevenBit [] := fun _ h => nomatch h

@[simp] theorem sevenBit_append {a b : List Byte} : SevenBit (a ++ b) ↔ SevenBit a ∧ SevenBit b :=
  List.forall_mem_append

@[simp] theorem sevenBit_cons {c : Byte} {text : List Byte} :
    SevenBit (c :: text) ↔ c.toNat < 128 ∧ SevenBit text :=
  List.forall_mem_cons

theorem digit_lt {d : Nat} (h : d < 10) : (digit d).toNat < 128 := by
  rw [digit, BitVec.toNat_ofNat]
  omega

theorem sevenBit_decimalDigits (fuel n : Nat) {tail : List Byte} (h : SevenBit tail) :
    SevenBit (decimalDigits fuel n tail) := by
  induction fuel generalizing n tail with
  | zero => exact h
  | succ fuel ih =>
    unfold decimalDigits
    split
    · rename_i hn
      exact sevenBit_cons.2 ⟨digit_lt hn, h⟩
    · exact ih _ (sevenBit_cons.2 ⟨digit_lt (Nat.mod_lt _ (by norm_num)), h⟩)

@[simp] theorem sevenBit_decimal (n : Nat) : SevenBit (decimal n) :=
  sevenBit_decimalDigits _ _ sevenBit_nil

@[simp] theorem sevenBit_eol (e : Config.Eol) : SevenBit e.bytes := by
  cases e
  · simp [Config.Eol.bytes]
  · simp [Config.Eol.bytes]

@[simp] theorem sevenBit_thousandths (k : Nat) : SevenBit (thousandths k) := by
  have hundreds : (digit (k % 1000 / 100)).toNat < 128 := digit_lt (by omega)
  have tens : (digit (k % 100 / 10)).toNat < 128 := digit_lt (by omega)
  have ones : (digit (k % 10)).toNat < 128 := digit_lt (by omega)
  simp [thousandths, ascii, hundreds, tens, ones]

theorem sevenBit_fmt3 {α : Type} {A : Config.Arith α} {v : α} {text : List Byte}
    (h : fmt3 A v = some text) : SevenBit text := by
  unfold fmt3 at h
  split at h
  · cases h
    exact sevenBit_thousandths _
  · cases h

theorem sevenBit_bannerText (p : Config.Params) : SevenBit (bannerText p) := by
  simp [bannerText, ascii]

@[simp] theorem sevenBit_bandText (p : Config.Params) (lo hi : Nat) : SevenBit (bandText p lo hi) := by
  simp [bandText, ascii]

theorem sevenBit_traceLine {α : Type} {A : Config.Arith α} {p : Config.Params} {lo hi : Nat}
    {level gain ema : α} {line : List Byte} (h : traceLine A p lo hi level gain ema = some line) :
    SevenBit line := by
  unfold traceLine at h
  split at h
  · rename_i l g m hl hg hm
    cases h
    simp [ascii, sevenBit_fmt3 hl, sevenBit_fmt3 hg, sevenBit_fmt3 hm]
  · cases h

/-! The band -/

/-- The lower edge leaves room for the upper one (45_band_selector.md R181). -/
theorem bandLow_range {nyq p1 : Nat} (hnyq : 2 ≤ nyq) (hp : p1 < 1024) :
    1 ≤ bandLow nyq p1 ∧ bandLow nyq p1 < nyq := by
  have h : p1 * (nyq - 2) / 1023 ≤ nyq - 2 :=
    Nat.div_le_of_le_mul (Nat.mul_le_mul_right _ (by omega))
  unfold bandLow
  omega

/-- The upper edge lies above the lower one, up to `NYQ` (45_band_selector.md R182). -/
theorem bandHigh_range {nyq lo : Nat} (hlo : lo < nyq) (p2 : Nat) :
    lo < bandHigh nyq lo p2 ∧ bandHigh nyq lo p2 ≤ nyq := by
  unfold bandHigh Numeric.clampInt
  generalize bandWidth nyq lo p2 = w
  split_ifs <;> omega

theorem nyq_range (l : Config.FrameLen) : 2 ≤ l.nyq ∧ l.nyq < 128 := by
  cases l <;> decide

/-- After BANDSEL `1 ≤ BINLO < BINHI ≤ NYQ` (45_band_selector.md R184). -/
theorem setBand_range (s : State) :
    1 ≤ s.setBand.binLo.toNat ∧ s.setBand.binLo.toNat < s.setBand.binHi.toNat ∧
      s.setBand.binHi.toNat ≤ s.params.frame.nyq := by
  obtain ⟨hnyq, hnyq'⟩ := nyq_range s.params.frame
  obtain ⟨hlo, hlo'⟩ := bandLow_range hnyq s.p1.isLt
  obtain ⟨hhi, hhi'⟩ := bandHigh_range hlo' s.p2.toNat
  rw [State.setBand_binLo, State.setBand_binHi, BitVec.toNat_ofNat, BitVec.toNat_ofNat,
    Nat.mod_eq_of_lt (by omega), Nat.mod_eq_of_lt (by omega)]
  exact ⟨hlo, hhi, hhi'⟩

/-! The timer -/

/-- A counter that counts down has turned (41_pwm_driver.md R116). -/
def Timer.Turned (t : Timer) : Prop := t.dir = .down → t.cnt ≠ 255

theorem Timer.Turned.tick {t : Timer} (h : t.Turned) (ocr : BitVec 16) : (t.tick ocr).Turned := by
  obtain ⟨act, cnt, dir⟩ := t
  cases dir with
  | up =>
    by_cases htop : cnt = 255
    · simp [Timer.Turned, Timer.tick, htop]
    · simp only [Timer.Turned, Timer.tick, htop, if_false, reduceCtorEq, false_implies]
  | down =>
    have hcnt : cnt ≠ 255 := h rfl
    by_cases h0 : cnt = 0
    · simp [Timer.Turned, Timer.tick, h0]
    · simp only [Timer.Turned, Timer.tick, h0, if_false]
      intro _
      bv_omega

theorem Timer.Turned.clocks {t : Timer} (h : t.Turned) (tcfg : BitVec 4) (ocr : BitVec 16) (k : Nat) :
    (t.clocks tcfg ocr k).Turned := by
  have hticks : ∀ k (t : Timer), t.Turned → (t.ticks ocr k).Turned := by
    intro k
    induction k with
    | zero => exact fun _ h => h
    | succ k ih => exact fun t h => ih _ (h.tick ocr)
  unfold Timer.clocks
  split
  · exact hticks k t h
  · exact h

/-! The sampler -/

theorem len_le (s : State) : s.len ≤ 256 := by
  unfold State.len
  cases s.params.frame <;> decide

/-- The state before sample `I`: the samples before it are stored, and no conversion is in flight
(43_sampler.md R140 to R145). -/
structure State.Sampling (s : State) : Prop where
  window : ∀ x ∈ s.hann, F64.within F64.zero F64.one x
  real_length : s.vReal.length = s.len
  imag_length : s.vImag.length = s.len
  stored_real : ∀ j < s.i.toNat, F64.boundedBy 9 (wordAt num s.vReal j)
  stored_imag : ∀ j < s.i.toNat, F64.isZero (wordAt num s.vImag j)
  channel : s.adcch ≠ 3
  idle : s.inFlight = none

theorem sampleOne_index {s : State} (h : s.i.toNat < s.len) : s.sampleOne.i.toNat = s.i.toNat + 1 := by
  have := len_le s
  simp only [State.sampleOne, State.sampleStore_i, State.sampleWait_i]
  bv_omega

theorem State.Sampling.sampleOne {s : State} (h : s.Sampling) (hi : s.i.toNat < s.len) :
    s.sampleOne.Sampling := by
  have hindex := sampleOne_index hi
  exact
    { window := by simpa [State.sampleOne] using h.window
      real_length := by simpa [State.sampleOne, State.len] using h.real_length
      imag_length := by simpa [State.sampleOne, State.len] using h.imag_length
      stored_real := by
        intro j hj
        simp only [State.sampleOne, State.sampleStore_vReal, State.sampleWait_vReal, State.sampleWait_i]
        obtain rfl | hne := eq_or_ne s.i.toNat j
        · exact wordAt_set_of _ _ (boundedBy_windowedSample _ (wordAt_of_forall h.window
            ⟨by decide, by decide +kernel, by decide +kernel⟩ _)) (boundedBy_zero 9)
        · rw [wordAt_set_ne hne]
          exact h.stored_real j (by omega)
      stored_imag := by
        intro j hj
        simp only [State.sampleOne, State.sampleStore_vImag, State.sampleWait_vImag, State.sampleWait_i]
        obtain rfl | hne := eq_or_ne s.i.toNat j
        · exact wordAt_set_of _ _ (Numeric.zero_num ▸ F64.isZero_zero) F64.isZero_zero
        · rw [wordAt_set_ne hne]
          exact h.stored_imag j (by omega)
      channel := by simp [State.sampleOne]
      idle := by simp [State.sampleOne] }

theorem State.Sampling.sampleLoop (k : Nat) {s : State} (h : s.Sampling) (hk : s.i.toNat + k ≤ s.len) :
    (s.sampleLoop k).Sampling ∧ (s.sampleLoop k).i.toNat = s.i.toNat + k := by
  induction k generalizing s with
  | zero => exact ⟨h, rfl⟩
  | succ k ih =>
    have hindex := sampleOne_index (s := s) (by omega)
    have hlen : s.sampleOne.len = s.len := by simp [State.len, State.sampleOne]
    obtain ⟨hs, hi⟩ := ih (h.sampleOne (by omega)) (by omega)
    exact ⟨hs, by rw [State.sampleLoop, hi]; omega⟩

end Sys2Proof.Machine
end

section
/-! PROOF. Every step keeps the machine invariant. Each clause has its own writers: where none of them runs it
is carried over, and each writer's result meets it. -/

namespace Sys2Proof.Machine

/-! What an operation leaves unchanged -/

/-- The registers of the invariant that the operation leaves unchanged, by their writers (10_state.md R23). -/
structure ExecFrame (i : Instr) (s t : State) : Prop where
  params : t.params = s.params
  twRe : t.twRe = s.twRe
  twIm : t.twIm = s.twIm
  timer : t.timer = s.timer
  index : i ≠ .sample → t.i = s.i
  band : i ≠ .bandsel → t.binLo = s.binLo ∧ t.binHi = s.binHi
  control : i ≠ .agc → t.ema = s.ema ∧ t.gain = s.gain ∧ t.level = s.level
  energy : i ≠ .energy → t.e = s.e
  buffers : i ≠ .sample → i ≠ .fft → t.vReal = s.vReal ∧ t.vImag = s.vImag
  hann : i ≠ .wininit → t.hann = s.hann
  tcfg : i ≠ .pwminit → t.tcfg = s.tcfg
  ocr : i ≠ .pwminit → i ≠ .pwmwr → t.ocr = s.ocr
  adc : i ≠ .sample → i ≠ .bandsel → t.adcch = s.adcch ∧ t.inFlight = s.inFlight
  txq : i ≠ .banner → i ≠ .trace → t.txq = s.txq

theorem exec_frame {i : Instr} {s t : State} (h : exec i s = .next t) : ExecFrame i s t := by
  obtain ⟨hparams, hre, him, htimer, -, -, hsample, hband, -, -, hagc, henergy, hbuffers, hhann, htcfg, hocr,
    -, hadc, -, htxq⟩ := registersHaveOneWriter i s t h
  exact
    { params := hparams, twRe := hre, twIm := him, timer := htimer
      index := fun hi => have ⟨_, hindex, _⟩ := hsample hi; hindex
      band := fun hi => have ⟨_, _, hlohi⟩ := hband hi; hlohi
      control := hagc, energy := henergy, buffers := hbuffers, hann := hhann, tcfg := htcfg, ocr := hocr
      adc := fun hi hj => have ⟨hchannel, hidle, _⟩ := hadc hi hj; ⟨hchannel, hidle⟩
      txq := htxq }

theorem exec_len {i : Instr} {s t : State} (h : exec i s = .next t) : t.len = s.len := by
  rw [State.len, (exec_frame h).params, State.len]

/-- An operation that answers goes on to its next stage (40_sequencer.md R100, R101). -/
theorem exec_stage {i : Instr} {s t : State} (h : exec i s = .next t) : t.stage = nextStage i := by
  cases i with
  | pwminit => rw [exec_pwminit] at h; cases h; rfl
  | wininit => rw [exec_wininit] at h; cases h; rfl
  | banner => rw [exec_banner] at h; cases h; split <;> rfl
  | sample => obtain ⟨-, rfl⟩ := exec_sample_next h; rfl
  | fft => obtain ⟨-, rfl⟩ := exec_fft_next h; rfl
  | bandsel => rw [exec_bandsel] at h; cases h; rfl
  | energy => obtain ⟨-, rfl⟩ := exec_energy_next h; rfl
  | agc => obtain ⟨_, -, rfl⟩ := exec_agc_next h; rfl
  | render => obtain ⟨_, -, rfl⟩ := exec_render_next h; rfl
  | pwmwr => rw [exec_pwmwr] at h; cases h; rfl
  | trace => obtain ⟨-, rfl⟩ | ⟨-, _, -, rfl⟩ := exec_trace_next h <;> rfl

theorem nextStage_eq_four {i : Instr} : nextStage i = 4 ↔ i = .sample := by
  cases i <;> decide

/-! The clauses of the invariant, each with its writers -/

section
variable {i : Instr} {s t : State}

/-- SAMPLE's loop starts with nothing stored and ends with the whole frame (43_sampler.md R140). -/
theorem exec_sample_sampling (hs : s.Inv) (h : exec .sample s = .next t) :
    t.Sampling ∧ t.i.toNat = s.len := by
  obtain ⟨-, rfl⟩ := exec_sample_next h
  have hstart : s.sampleStart.Sampling :=
    { window := by simpa using hs.window_range
      real_length := by simpa [State.len] using hs.vReal_length
      imag_length := by simpa [State.len] using hs.vImag_length
      stored_real := by simp
      stored_imag := by simp
      channel := by simpa using hs.channel_legal
      idle := by simpa using hs.adc_idle }
  obtain ⟨hloop, hindex⟩ := hstart.sampleLoop s.len (by simp [State.len])
  refine ⟨?_, by simpa using hindex⟩
  exact
    { window := by simpa using hloop.window
      real_length := by simpa [State.len] using hloop.real_length
      imag_length := by simpa [State.len] using hloop.imag_length
      stored_real := by simpa using hloop.stored_real
      stored_imag := by simpa using hloop.stored_imag
      channel := by simpa using hloop.channel
      idle := by simpa using hloop.idle }

/-- FFT finds a frame of samples up to `2^9` and leaves magnitudes up to `2^26` (44_fft.md R160, log 31). -/
theorem transformed_bounded (hs : s.Inv) (hstage : s.stage = 4) :
    s.transformed.re.length = s.len ∧ s.transformed.im.length = s.len ∧
      ∀ x ∈ s.transformed.re, F64.boundedBy 26 x := by
  have hreal : ∀ x ∈ s.vReal, F64.boundedBy 9 x := by simpa [hstage] using hs.frame_real
  have himag : ∀ x ∈ s.vImag, F64.boundedBy 9 x := fun x hx => (hs.frame_imag hstage x hx).boundedBy 9
  have hframe : Complexes.Bounded s.len (fun _ => 9) ⟨s.vReal, s.vImag⟩ :=
    { re_length := hs.vReal_length
      im_length := hs.vImag_length
      re_bounded := wordAt_of_forall hreal (boundedBy_zero 9)
      im_bounded := wordAt_of_forall himag (boundedBy_zero 9) }
  have hunit : Twiddles.Unit ⟨s.twRe, s.twIm⟩ := by
    rw [hs.rom_re, hs.rom_im]
    exact Twiddles.unit_rom s.len
  have hlog : s.params.frame.log2 ≤ 8 := by cases s.params.frame <;> decide
  obtain ⟨hre, him, hbound⟩ := boundedBy_fft (L := s.params.frame.log2) (by omega) hunit hframe
  exact ⟨hre, him, fun x hx => F64.boundedBy_mono (by omega) (hbound x hx)⟩

theorem exec_index (hs : s.Inv) (h : exec i s = .next t) : t.i.toNat ≤ t.len := by
  rw [exec_len h]
  by_cases hi : i = .sample
  · subst hi
    exact (exec_sample_sampling hs h).2.le
  · rw [(exec_frame h).index hi]
    exact hs.index_range

theorem exec_buffer_lengths (hs : s.Inv) (hd : decode s.stage = .ok i) (h : exec i s = .next t) :
    t.vReal.length = t.len ∧ t.vImag.length = t.len := by
  by_cases hi : i = .sample
  · subst hi
    obtain ⟨hsampling, -⟩ := exec_sample_sampling hs h
    exact ⟨hsampling.real_length, hsampling.imag_length⟩
  rw [exec_len h]
  by_cases hj : i = .fft
  · subst hj
    obtain ⟨hre, him, -⟩ := transformed_bounded hs (encode_of_decode hd).symm
    obtain ⟨-, rfl⟩ := exec_fft_next h
    exact ⟨hre, him⟩
  · obtain ⟨hre, him⟩ := (exec_frame h).buffers hi hj
    rw [hre, him]
    exact ⟨hs.vReal_length, hs.vImag_length⟩

theorem exec_frame_real (hs : s.Inv) (hd : decode s.stage = .ok i) (h : exec i s = .next t) :
    ∀ x ∈ t.vReal, F64.boundedBy (if t.stage = 4 then 9 else 26) x := by
  rw [exec_stage h]
  by_cases hi : i = .sample
  · subst hi
    obtain ⟨hsampling, hindex⟩ := exec_sample_sampling hs h
    intro x hx
    obtain ⟨j, hj, rfl⟩ := exists_wordAt_of_mem hx
    rw [hsampling.real_length, exec_len h] at hj
    exact hsampling.stored_real j (by omega)
  rw [if_neg (nextStage_eq_four.not.2 hi)]
  by_cases hj : i = .fft
  · subst hj
    obtain ⟨-, -, hbound⟩ := transformed_bounded hs (encode_of_decode hd).symm
    obtain ⟨-, rfl⟩ := exec_fft_next h
    exact hbound
  · rw [((exec_frame h).buffers hi hj).1]
    intro x hx
    exact F64.boundedBy_mono (by split <;> norm_num) (hs.frame_real x hx)

theorem exec_frame_imag (hs : s.Inv) (h : exec i s = .next t) (hstage : t.stage = 4) :
    ∀ x ∈ t.vImag, F64.isZero x := by
  rw [exec_stage h, nextStage_eq_four] at hstage
  subst hstage
  obtain ⟨hsampling, hindex⟩ := exec_sample_sampling hs h
  intro x hx
  obtain ⟨j, hj, rfl⟩ := exists_wordAt_of_mem hx
  rw [hsampling.imag_length, exec_len h] at hj
  exact hsampling.stored_imag j (by omega)

theorem exec_window (hs : s.Inv) (h : exec i s = .next t) :
    t.hann.length = t.len ∧ ∀ x ∈ t.hann, F64.within F64.zero F64.one x := by
  rw [exec_len h]
  by_cases hi : i = .wininit
  · subst hi
    rw [exec_wininit] at h
    cases h
    exact ⟨length_hannTable num s.len, hannTable_within s.len⟩
  · rw [(exec_frame h).hann hi]
    exact ⟨hs.hann_length, hs.window_range⟩

theorem exec_rom (hs : s.Inv) (h : exec i s = .next t) :
    t.twRe = twiddleRe num t.len ∧ t.twIm = twiddleIm num t.len := by
  rw [exec_len h, (exec_frame h).twRe, (exec_frame h).twIm]
  exact ⟨hs.rom_re, hs.rom_im⟩

theorem exec_band (hs : s.Inv) (h : exec i s = .next t) :
    1 ≤ t.binLo.toNat ∧ t.binLo.toNat < t.binHi.toNat ∧ t.binHi.toNat ≤ t.params.frame.nyq := by
  by_cases hi : i = .bandsel
  · subst hi
    rw [exec_bandsel] at h
    cases h
    simpa using setBand_range s.readPot1.readPot2
  · obtain ⟨hlo, hhi⟩ := (exec_frame h).band hi
    rw [(exec_frame h).params, hlo, hhi]
    exact ⟨hs.band_low, hs.band_order, hs.band_high⟩

theorem exec_control (hs : s.Inv) (h : exec i s = .next t) :
    F64.within F64.zero F64.pow52 t.ema ∧ F64.within (agcMin num) (agcMax num) t.gain ∧
      F64.within F64.zero F64.one t.level := by
  by_cases hi : i = .agc
  · subst hi
    obtain ⟨c, hc, rfl⟩ := exec_agc_next h
    obtain ⟨hema, m, -, hgain, hlevel⟩ := agcUpdate_some hc
    refine ⟨?_, adaptedGain_within hgain, levelOf_within hlevel⟩
    change F64.within F64.zero F64.pow52 c.ema
    rw [hema]
    exact smoothed_within hs.ema_range hs.energy_range
  · obtain ⟨hema, hgain, hlevel⟩ := (exec_frame h).control hi
    rw [hema, hgain, hlevel]
    exact ⟨hs.ema_range, hs.gain_range, hs.level_range⟩

theorem exec_energy_range (hs : s.Inv) (h : exec i s = .next t) : F64.within F64.zero F64.pow52 t.e := by
  by_cases hi : i = .energy
  · subst hi
    obtain ⟨-, rfl⟩ := exec_energy_next h
    refine bandEnergy_within (fun x hx => ?_) hs.band_order.le (s.binHi.isLt.trans (by norm_num))
    exact F64.boundedBy_mono (by split <;> norm_num) (hs.frame_real x hx)
  · rw [(exec_frame h).energy hi]
    exact hs.energy_range

theorem exec_tcfg (hs : s.Inv) (h : exec i s = .next t) : tcfgLegal t.tcfg = true := by
  by_cases hi : i = .pwminit
  · subst hi
    rw [exec_pwminit] at h
    cases h
    exact (by decide : tcfgLegal 0b0011 = true)
  · rw [(exec_frame h).tcfg hi]
    exact hs.config_legal

theorem exec_ocr (hs : s.Inv) (h : exec i s = .next t) : t.ocr.toNat < 256 := by
  by_cases hi : i = .pwminit
  · subst hi
    rw [exec_pwminit] at h
    cases h
    exact (by decide : (0 : BitVec 16).toNat < 256)
  by_cases hj : i = .pwmwr
  · subst hj
    rw [exec_pwmwr] at h
    cases h
    have := s.duty.isLt
    rw [BitVec.toNat_setWidth]
    omega
  · rw [(exec_frame h).ocr hi hj]
    exact hs.ocr_high

theorem exec_adc (hs : s.Inv) (h : exec i s = .next t) : t.adcch ≠ 3 ∧ t.inFlight = none := by
  by_cases hi : i = .sample
  · subst hi
    obtain ⟨hsampling, -⟩ := exec_sample_sampling hs h
    exact ⟨hsampling.channel, hsampling.idle⟩
  by_cases hj : i = .bandsel
  · subst hj
    rw [exec_bandsel] at h
    cases h
    exact ⟨by simp, rfl⟩
  · obtain ⟨hchannel, hidle⟩ := (exec_frame h).adc hi hj
    rw [hchannel, hidle]
    exact ⟨hs.channel_legal, hs.adc_idle⟩

theorem exec_text (hs : s.Inv) (h : exec i s = .next t) : SevenBit t.txq := by
  have hold : SevenBit s.txq := hs.text_ascii
  by_cases hi : i = .banner
  · subst hi
    rw [exec_banner] at h
    cases h
    split
    · exact sevenBit_append.2 ⟨hold, sevenBit_bannerText _⟩
    · exact hold
  by_cases hj : i = .trace
  · subst hj
    obtain ⟨-, rfl⟩ | ⟨-, line, hline, rfl⟩ := exec_trace_next h
    · exact hold
    · have hnew : SevenBit line := by
        obtain hline | ⟨-, -, rfl⟩ := hline
        · exact sevenBit_traceLine hline
        · exact sevenBit_nil
      rw [State.advance_txq, State.traceAt_txq]
      split
      · exact sevenBit_append.2 ⟨hold, hnew⟩
      · exact hold
  · rw [(exec_frame h).txq hi hj]
    exact hold

/-- An operation that answers keeps the invariant. -/
theorem exec_inv (hs : s.Inv) (hd : decode s.stage = .ok i) (h : exec i s = .next t) : t.Inv := by
  obtain ⟨hreLength, himLength⟩ := exec_buffer_lengths hs hd h
  obtain ⟨hannLength, hwindow⟩ := exec_window hs h
  obtain ⟨hre, him⟩ := exec_rom hs h
  obtain ⟨hlow, horder, hhigh⟩ := exec_band hs h
  obtain ⟨hema, hgain, hlevel⟩ := exec_control hs h
  obtain ⟨hchannel, hidle⟩ := exec_adc hs h
  exact
    { stage_legal := by
        rw [exec_stage h, nextStage_eq_encode]
        exact encode_le _
      index_range := exec_index hs h
      vReal_length := hreLength
      vImag_length := himLength
      hann_length := hannLength
      rom_re := hre
      rom_im := him
      window_range := hwindow
      band_low := hlow
      band_order := horder
      band_high := hhigh
      ema_range := hema
      gain_range := hgain
      level_range := hlevel
      energy_range := exec_energy_range hs h
      frame_real := exec_frame_real hs hd h
      frame_imag := exec_frame_imag hs h
      config_legal := exec_tcfg hs h
      ocr_high := exec_ocr hs h
      timer_turn := by
        rw [(exec_frame h).timer]
        exact hs.timer_turn
      channel_legal := hchannel
      adc_idle := hidle
      text_ascii := exec_text hs h }

end

/-! What follows an operation, and reset -/

theorem inv_runTimer {s : State} (hs : s.Inv) : s.runTimer.Inv :=
  { hs with
    timer_turn := (show s.timer.Turned from hs.timer_turn).clocks s.tcfg s.ocr s.timerClockCount }

theorem inv_dropReset {s : State} (hs : s.Inv) : s.dropReset.Inv := { hs with }

/-- The invariant holds at reset, in every build and environment (70_reset_and_hazards.md R291). -/
theorem inv_resetWith (p : Config.Params) (v : Env) : (State.resetWith p v).Inv := by
  have hzero : F64.within F64.zero F64.one F64.zero := ⟨by decide, by decide +kernel, by decide +kernel⟩
  have henergy : F64.within F64.zero F64.pow52 F64.zero := ⟨by decide, by decide +kernel, by decide +kernel⟩
  have hgain : F64.within (agcMin num) (agcMax num) F64.one :=
    ⟨by decide, by decide +kernel, by decide +kernel⟩
  have hlength : (List.replicate p.frame.len F64.zero).length = p.frame.len := List.length_replicate
  have hwords : ∀ x ∈ List.replicate p.frame.len F64.zero, x = F64.zero :=
    fun x hx => List.eq_of_mem_replicate hx
  exact
    { stage_legal := Nat.zero_le _
      index_range := Nat.zero_le _
      vReal_length := hlength
      vImag_length := hlength
      hann_length := hlength
      rom_re := rfl
      rom_im := rfl
      window_range := fun x hx => hwords x hx ▸ hzero
      band_low := le_rfl
      band_order := by simp
      band_high := (nyq_range p.frame).1
      ema_range := henergy
      gain_range := hgain
      level_range := hzero
      energy_range := henergy
      frame_real := fun x hx => hwords x hx ▸ boundedBy_zero _
      frame_imag := fun _ x hx => hwords x hx ▸ F64.isZero_zero
      config_legal := (by decide : tcfgLegal 0 = true)
      ocr_high := by simp
      timer_turn := nofun
      channel_legal := by simp
      adc_idle := rfl
      text_ascii := sevenBit_nil }

end Sys2Proof.Machine

namespace Sys2Proof

open Machine

/-- Settles O57: a step is a reset or an operation followed by the timer's turn, and each keeps every clause. -/
theorem invKeptByStep : Obligations.InvKeptByStep := by
  intro s t hs h
  obtain ⟨-, rfl⟩ | ⟨-, -, -, i, u, hd, hu, rfl⟩ := step_next_cases h
  · exact inv_dropReset (inv_resetWith s.params s.env)
  · exact inv_dropReset (inv_runTimer (exec_inv hs hd hu))

end Sys2Proof
end

section
/-! PROOF. The sequencer: a step performs the operation `STAGE` encodes and goes on to its row of the
next-stage table (40_sequencer.md R100, R101). -/

namespace Sys2Proof.Machine

theorem runOperation_refused {i : Instr} {s : State} {r : Refusal} (h : exec i s = .refused r) :
    runOperation i s = .refused r := by
  rw [runOperation, h]

/-- A step that finds a reserved value is refused by its name (U16, U17; log 16). -/
theorem step_of_reserved {s : State} {i : Instr} {r : Refusal} (hr : s.resetAsserted = false)
    (hd : decode s.stage = .ok i) (hv : s.reservedValue = some r) : step s = .refused r := by
  rw [← sequencerStep_of_reserved hd hv]
  simp [step, hr]

/-- Where the operation answers, the step is its answer after the timer's turn. -/
theorem step_of_exec {s t : State} {i : Instr} (hr : s.resetAsserted = false)
    (hd : decode s.stage = .ok i) (hv : s.reservedValue = none) (h : exec i s = .next t) :
    step s = .next t.runTimer.dropReset :=
  (step_of_decode hr hd hv).trans (runOperation_next.2 ⟨t, h, rfl⟩)

end Sys2Proof.Machine

namespace Sys2Proof

open Machine

/-- Settles O3: each operation that answers ends with its row of the table. -/
theorem nextStageTable : Obligations.NextStageTable := fun _ _ =>
  ⟨exec_stage, exec_stage, exec_stage, exec_stage, exec_stage, exec_stage, exec_stage, exec_stage,
    exec_stage, exec_stage, exec_stage⟩

/-- Settles O1, by what ADCCH and TCFG hold. -/
theorem stepRunsDecodedOperation : Obligations.StepRunsDecodedOperation := by
  intro s i hr hd _
  refine ⟨fun hchannel htimer => ?legal, fun hchannel htimer => ?timer, fun hchannel => ?channel⟩
  case legal =>
    have hv : s.reservedValue = none := reservedValue_eq_none.2 ⟨hchannel, htimer⟩
    exact ⟨fun t ht => step_of_exec hr hd hv ht,
      fun r hrefused => (step_of_decode hr hd hv).trans (runOperation_refused hrefused)⟩
  case timer => exact step_of_reserved hr hd (reservedValue_timer hchannel htimer)
  case channel => exact step_of_reserved hr hd (reservedValue_channel hchannel)

end Sys2Proof
end

section
/-! PROOF. Under the invariant every operation answers a next state (60_exceptions.md R260, R262): no number
that is not finite reaches `min`, `clamp` or `floor`, and every array has its number of words. -/

namespace Sys2Proof.Machine

/-! The helper functions on bounded numbers -/

theorem Numeric.min_bounded {k : Nat} {a b : NumWord} (ha : F64.boundedBy k a) (hb : F64.boundedBy k b) :
    ∃ m, Numeric.min num a b = some m ∧ F64.boundedBy k m := by
  refine ⟨if F64.lt b a then b else a, ?_, ?_⟩
  · rw [Numeric.min, num_finite, num_lt, ha.1, hb.1]
    rfl
  · split
    · exact hb
    · exact ha

theorem F64.boundedBy_one : F64.boundedBy 0 F64.one := F64.boundedBy_zero_iff.2 ⟨by decide, F64.mag_one.le⟩

theorem Numeric.boundedBy_half : F64.boundedBy 0 (Numeric.half num) :=
  F64.boundedBy_zero_iff.2 ⟨by decide +kernel, by decide +kernel⟩

theorem Numeric.roundHalfUp_isSome {k : Nat} (hk : k < 900) {x : NumWord} (hx : F64.boundedBy k x) :
    ∃ z, Numeric.roundHalfUp num x = some z := by
  have hsum := F64.boundedBy_add hk hx (F64.boundedBy_mono (Nat.zero_le k) Numeric.boundedBy_half)
  exact ⟨_, by rw [Numeric.roundHalfUp, num_add, num_finite, if_pos hsum.1]⟩

/-! The control loop -/

theorem F64.within.boundedBy_pow52 {x : NumWord} (h : F64.within F64.zero F64.pow52 x) :
    F64.boundedBy 52 x :=
  ⟨h.1, F64.mag_pow52 ▸ h.mag_le⟩

theorem gain_nonneg {g : NumWord} (h : F64.within (agcMin num) (agcMax num) g) : 0 ≤ F64.val g :=
  (by decide +kernel : 0 ≤ F64.val (agcMin num)).trans h.2.1

theorem gain_bounded {g : NumWord} (h : F64.within (agcMin num) (agcMax num) g) : F64.boundedBy 8 g := by
  refine ⟨h.1, ?_⟩
  have hmax : F64.val (agcMax num) ≤ (2 ^ 8 * F64.scale : Nat) := by decide +kernel
  have hnonneg := gain_nonneg h
  obtain ⟨-, -, hle⟩ := h
  rw [← F64.natAbs_val g]
  omega

/-- The smoothed energy times the gain is finite and not negative. -/
theorem mul_gain_bounded {ema gain : NumWord} (hema : F64.within F64.zero F64.pow52 ema)
    (hgain : F64.within (agcMin num) (agcMax num) gain) :
    F64.boundedBy 60 (F64.mul ema gain) ∧ 0 ≤ F64.val (F64.mul ema gain) := by
  have hbound := hema.boundedBy_pow52
  obtain ⟨hfin, hema0, -⟩ := hema
  rw [F64.val_zero] at hema0
  exact ⟨F64.boundedBy_mul (j := 52) (k := 8) (by norm_num) hbound (gain_bounded hgain),
    (F64.isRounding_mul hfin hgain.1).nonneg (mul_nonneg hema0 (gain_nonneg hgain))⟩

theorem measured_isSome {ema gain : NumWord} (hema : F64.within F64.zero F64.pow52 ema)
    (hgain : F64.within (agcMin num) (agcMax num) gain) :
    ∃ m, measured num ema gain = some m ∧ F64.boundedBy 60 m := by
  rw [measured, Numeric.one_num, num_mul]
  obtain ⟨hproduct, -⟩ := mul_gain_bounded hema hgain
  exact Numeric.min_bounded (F64.boundedBy_mono (Nat.zero_le _) F64.boundedBy_one) hproduct

theorem adaptedGain_isSome {gain m : NumWord} (hgain : F64.within (agcMin num) (agcMax num) gain)
    (hm : F64.boundedBy 60 m) : ∃ g, adaptedGain num gain m = some g := by
  have hone : F64.boundedBy 61 F64.one := F64.boundedBy_mono (Nat.zero_le _) F64.boundedBy_one
  have hsize : F64.boundedBy 0 (agcStep num) := ⟨by decide +kernel, by decide +kernel⟩
  have htarget : F64.boundedBy 60 (targetLevel num) := ⟨by decide +kernel, by decide +kernel⟩
  have hdiff := F64.boundedBy_sub (by norm_num) htarget hm
  have hstep := F64.boundedBy_mul (by norm_num) hsize hdiff
  have hfactor := F64.boundedBy_add (by norm_num) hone hstep
  have hproduct := F64.boundedBy_mul (by norm_num) (gain_bounded hgain) hfactor
  refine Numeric.clamp_isSome _ _ ?_
  rw [gainProduct, Numeric.one_num, num_mul, num_add, num_sub]
  exact hproduct.1

theorem levelOf_isSome {ema gain : NumWord} (hema : F64.within F64.zero F64.pow52 ema)
    (hgain : F64.within (agcMin num) (agcMax num) gain) : ∃ l, levelOf num ema gain = some l := by
  obtain ⟨hprod, hnonneg⟩ := mul_gain_bounded hema hgain
  have hroot := F64.boundedBy_sqrt (k := 30) (by norm_num) hprod hnonneg
  refine Numeric.clamp_isSome _ _ ?_
  rw [num_sqrt, num_mul]
  exact hroot.1

/-- AGC's five steps answer on the ranges of R207. -/
theorem agcUpdate_isSome {ema gain e : NumWord} (hema : F64.within F64.zero F64.pow52 ema)
    (hgain : F64.within (agcMin num) (agcMax num) gain) (he : F64.within F64.zero F64.pow52 e) :
    ∃ c, agcUpdate num ema gain e = some c := by
  have hsmoothed := smoothed_within hema he
  obtain ⟨m, hm, hbound⟩ := measured_isSome hsmoothed hgain
  obtain ⟨g, hg⟩ := adaptedGain_isSome hgain hbound
  obtain ⟨l, hl⟩ := levelOf_isSome hsmoothed (adaptedGain_within hg)
  refine ⟨⟨smoothed num ema e, g, l⟩, ?_⟩
  simp only [agcUpdate, hm, hg, hl]

/-! The duty and the status line -/

theorem dutyOfLevel_isSome {level : NumWord} (h : F64.isFinite level = true) :
    ∃ d, dutyOfLevel num level = some d := by
  obtain ⟨x, hx⟩ := Numeric.clamp_isSome (Numeric.zero num) (Numeric.one num) h
  have hrange := Numeric.clamp_within hx (by decide +kernel) (by decide +kernel) (by decide +kernel)
  rw [Numeric.zero_num, Numeric.one_num] at hrange
  have h255 : F64.boundedBy 8 (F64.ofInt 255) := ⟨by decide +kernel, by decide +kernel⟩
  have hsquare := F64.boundedBy_mul (by norm_num) hrange.boundedBy_one hrange.boundedBy_one
  have hscaled : F64.boundedBy (0 + 0 + 8) (gammaScaled num x) := by
    rw [gammaScaled, num_mul, num_ofInt]
    exact F64.boundedBy_mul (by norm_num) hsquare h255
  rw [dutyOfLevel, hx]
  exact Numeric.roundHalfUp_isSome (by norm_num) hscaled

theorem fmt3_isSome {v : NumWord} (h : F64.boundedBy 52 v) : ∃ text, fmt3 num v = some text := by
  have h1000 : F64.boundedBy 10 (F64.ofInt 1000) := ⟨by decide +kernel, by decide +kernel⟩
  obtain ⟨k, hk⟩ := Numeric.roundHalfUp_isSome (by norm_num) (F64.boundedBy_mul (by norm_num) h h1000)
  exact ⟨thousandths (thousandthsOf k), by rw [fmt3, num_mul, num_ofInt, hk]⟩

/-- A printable state has a status line (49_debug_trace.md R234). -/
theorem statusLine_isSome {s : State} (h : s.printable) : ∃ line, s.statusLine = some line := by
  obtain ⟨hlevel, hgain, hema⟩ := h
  obtain ⟨l, hl⟩ := fmt3_isSome hlevel
  obtain ⟨g, hg⟩ := fmt3_isSome hgain
  obtain ⟨m, hm⟩ := fmt3_isSome hema
  rw [State.statusLine, traceLine, hl, hg, hm]
  exact ⟨_, rfl⟩

theorem State.Inv.printable {s : State} (hs : s.Inv) : s.printable :=
  ⟨F64.boundedBy_mono (Nat.zero_le _) hs.level_range.boundedBy_one,
    F64.boundedBy_mono (by norm_num) (gain_bounded hs.gain_range), hs.ema_range.boundedBy_pow52⟩

/-! The operations -/

theorem exec_agc {s : State} {c : Control NumWord} (h : agcUpdate num s.ema s.gain s.e = some c) :
    exec .agc s = .next ((s.setControl c).advance .agc) := by
  change execAgc s = _
  unfold execAgc
  rw [h]

theorem exec_render {s : State} {d : Int} (h : dutyOfLevel num s.level = some d) :
    exec .render s = .next ({ s with duty := BitVec.ofInt 8 d }.advance .render) := by
  change execRender s = _
  unfold execRender
  rw [h]

theorem exec_trace {s : State} {line : List Byte} (h : s.statusLine = some line) :
    exec .trace s = .next
      (if s.params.traceEn then (s.traceAt s.env.ms.read line).advance .trace else s.advance .trace) := by
  change execTrace s = _
  unfold execTrace
  rw [h]
  split <;> rfl

theorem length_twiddles {α : Type} (A : Config.Arith α) (l : Config.FrameLen) :
    (twiddleRe A l.len).length = l.half ∧ (twiddleIm A l.len).length = l.half := by
  rw [twiddleRe, twiddleIm, List.length_map, List.length_map, List.length_range]
  cases l <;> exact ⟨rfl, rfl⟩

theorem State.Inv.fftSized {s : State} (hs : s.Inv) : s.fftSized = true := by
  obtain ⟨hre, him⟩ := length_twiddles num s.params.frame
  rw [← State.len_eq, ← hs.rom_re] at hre
  rw [← State.len_eq, ← hs.rom_im] at him
  simp only [State.fftSized, hs.vReal_length, hs.vImag_length, hre, him, decide_true, Bool.and_self]

theorem State.Inv.sampleSized {s : State} (hs : s.Inv) : s.sampleSized = true := by
  simp only [State.sampleSized, hs.hann_length, hs.vReal_length, hs.vImag_length, decide_true, Bool.and_self]

/-- Under the invariant every operation answers. -/
theorem exec_answers {s : State} (hs : s.Inv) (i : Instr) : ∃ t, exec i s = .next t := by
  cases i with
  | pwminit => exact ⟨_, exec_pwminit s⟩
  | wininit => exact ⟨_, exec_wininit s⟩
  | banner => exact ⟨_, exec_banner s⟩
  | sample => exact ⟨_, exec_sample s hs.sampleSized⟩
  | fft => exact ⟨_, exec_fft s hs.fftSized⟩
  | bandsel => exact ⟨_, exec_bandsel s⟩
  | energy => exact ⟨_, exec_energy s (decide_eq_true hs.vReal_length)⟩
  | agc =>
    obtain ⟨c, hc⟩ := agcUpdate_isSome hs.ema_range hs.gain_range hs.energy_range
    exact ⟨_, exec_agc hc⟩
  | render =>
    obtain ⟨d, hd⟩ := dutyOfLevel_isSome hs.level_range.1
    exact ⟨_, exec_render hd⟩
  | pwmwr => exact ⟨_, exec_pwmwr s⟩
  | trace =>
    obtain ⟨line, hline⟩ := statusLine_isSome hs.printable
    exact ⟨_, exec_trace hline⟩

end Sys2Proof.Machine
end

section
/-! PROOF. A run performs the operations of a sequence in the next-stage order, and what the outside sees of
it is what its operations show, one after another (40_sequencer.md R103, R104; 30_encoding.md R85). -/

namespace Sys2Proof

theorem chained_cons {i : Instr} {rest : List Instr} (h : chained (i :: rest) = true) :
    (∀ j ∈ rest.head?, j = i.follows) ∧ chained rest = true := by
  cases rest with
  | nil => exact ⟨nofun, rfl⟩
  | cons j rest => simpa [chained] using h

theorem chained_of_programWf {ops : List Instr} (h : programWf ops = true) : chained ops = true := by
  cases ops with
  | nil => rfl
  | cons i rest => exact (Bool.and_eq_true_iff.1 h).2

namespace Machine

/-! What an operation shows the outside -/

/-- The channels an operation requests conversions of (43_sampler.md R140, R143; 45_band_selector.md R180). -/
def requestsOf (len : Nat) : Instr → List (BitVec 2)
  | .sample => List.replicate len 0
  | .bandsel => [1, 2]
  | _ => []

theorem requestsOf_of_ne {len : Nat} {i : Instr} (hi : i ≠ .sample) (hj : i ≠ .bandsel) :
    requestsOf len i = [] := by
  unfold requestsOf
  split
  · exact absurd rfl hi
  · exact absurd rfl hj
  · rfl

/-- From `s` to `t` the outside sees what the operations show: a duty for each PWMWR, and the conversions
each requests. -/
structure Performed (ops : List Instr) (s t : State) : Prop where
  params : t.params = s.params
  duties : t.seen.duties.length = s.seen.duties.length + ops.count .pwmwr
  conversions : t.seen.conversions = s.seen.conversions ++ ops.flatMap (requestsOf s.len)

theorem Performed.nil (s : State) : Performed [] s s := ⟨rfl, rfl, by simp⟩

theorem Performed.cons {i : Instr} {ops : List Instr} {s t u : State} (h : Performed [i] s u)
    (ht : Performed ops u t) : Performed (i :: ops) s t where
  params := ht.params.trans h.params
  duties := by
    rw [ht.duties, h.duties, Nat.add_assoc, ← List.count_append, List.singleton_append]
  conversions := by
    have hlen : u.len = s.len := by rw [State.len, h.params, State.len]
    rw [ht.conversions, h.conversions, hlen, List.append_assoc, ← List.flatMap_append, List.singleton_append]

theorem sampleLoop_conversions (k : Nat) (s : State) :
    (s.sampleLoop k).seen.conversions = s.seen.conversions ++ List.replicate k 0 := by
  induction k generalizing s with
  | zero => simp [State.sampleLoop]
  | succ k ih => simp [State.sampleLoop, ih, State.sampleOne, List.replicate_succ]

theorem exec_duties {i : Instr} {s t : State} (h : exec i s = .next t) :
    t.seen.duties.length = s.seen.duties.length + [i].count .pwmwr := by
  by_cases hi : i = .pwmwr
  · subst hi
    rw [exec_pwmwr] at h
    cases h
    simp
  · obtain ⟨-, -, -, -, -, -, -, -, -, -, -, -, -, -, -, -, hduties, -⟩ := registersHaveOneWriter i s t h
    rw [hduties hi]
    simp [hi]

theorem exec_conversions {i : Instr} {s t : State} (h : exec i s = .next t) :
    t.seen.conversions = s.seen.conversions ++ requestsOf s.len i := by
  by_cases hi : i = .sample
  · subst hi
    obtain ⟨-, rfl⟩ := exec_sample_next h
    exact sampleLoop_conversions s.len s.sampleStart
  by_cases hj : i = .bandsel
  · subst hj
    rw [exec_bandsel] at h
    cases h
    simp [requestsOf]
  · obtain ⟨-, -, -, -, -, -, -, -, -, -, -, -, -, -, -, -, -, hadc, -⟩ := registersHaveOneWriter i s t h
    obtain ⟨-, -, -, hconversions⟩ := hadc hi hj
    rw [hconversions, requestsOf_of_ne hi hj, List.append_nil]

theorem exec_performed {i : Instr} {s t : State} (h : exec i s = .next t) : Performed [i] s t where
  params := (exec_frame h).params
  duties := exec_duties h
  conversions := by rw [List.flatMap_singleton, exec_conversions h]

/-! A step and a run -/

/-- No coming level of `rst` is asserted (log 12). -/
def State.Released (s : State) : Prop := ∀ b ∈ s.env.rst, b = false

theorem State.Released.resetAsserted {s : State} (h : s.Released) : s.resetAsserted = false := by
  rw [State.resetAsserted]
  cases hrst : s.env.rst with
  | nil => rfl
  | cons b rest => exact h b (by simp [hrst])

/-- An operation leaves the levels of `rst` as they are, and its step drops the first. -/
theorem State.Released.exec {i : Instr} {s t : State} (hs : s.Released) (h : exec i s = .next t) :
    t.runTimer.dropReset.Released := by
  obtain ⟨-, -, -, -, hrst, -⟩ := registersHaveOneWriter i s t h
  intro b hb
  rw [State.dropReset_env, State.runTimer_env, hrst] at hb
  exact hs b (List.mem_of_mem_tail hb)

/-- Under the invariant and without a reset, a step performs the operation of its stage. -/
theorem step_performs {i : Instr} {s : State} (hs : s.Inv) (hrst : s.Released)
    (hstage : s.stage = encode i) :
    ∃ u, step s = .next u ∧ u.Inv ∧ u.Released ∧ u.stage = encode i.follows ∧ Performed [i] s u := by
  have hd : decode s.stage = .ok i := hstage ▸ decode_encode i
  obtain ⟨t, ht⟩ := exec_answers hs i
  have hstep : step s = .next t.runTimer.dropReset :=
    step_of_exec hrst.resetAsserted hd (reservedValue_eq_none.2 ⟨hs.channel_legal, hs.config_legal⟩) ht
  obtain ⟨hparams, hduties, hconversions⟩ := exec_performed ht
  exact ⟨_, hstep, invKeptByStep _ _ hs hstep, hrst.exec ht,
    (exec_stage ht).trans (nextStage_eq_encode i), hparams, hduties, hconversions⟩

theorem run_succ_of_step {s u : State} (h : step s = .next u) (k : Nat) :
    Host.Core.run core (k + 1) s = Host.Core.run core k u := by
  have hcore : core.step s = .next u := h
  simp only [Host.Core.run, hcore]

/-- From a state at the head of a sequence in the next-stage order, with no reset, a run performs any
beginning of the sequence and stands at the operation after it. -/
theorem run_performs {ops : List Instr} {next : Instr} {rest : List Instr} {s : State} (hs : s.Inv)
    (hrst : s.Released) (hchain : chained (ops ++ next :: rest) = true)
    (hstage : ∀ i ∈ (ops ++ next :: rest).head?, s.stage = encode i) :
    ∃ t : State, Host.Core.run core ops.length s = .next t ∧ t.stage = encode next ∧ Performed ops s t := by
  induction ops generalizing s with
  | nil => exact ⟨s, rfl, hstage next rfl, Performed.nil s⟩
  | cons i ops ih =>
    obtain ⟨hfollows, hchain⟩ := chained_cons hchain
    obtain ⟨u, hstep, hu, hurst, hustage, hperformed⟩ := step_performs hs hrst (hstage i rfl)
    obtain ⟨t, hrun, htstage, htail⟩ := ih hu hurst hchain fun j hj => hfollows j hj ▸ hustage
    exact ⟨t, (run_succ_of_step hstep _).trans hrun, htstage, hperformed.cons htail⟩

end Machine

open Machine

/-! From reset -/

/-- `RUN k` may be followed by SAMPLE, as another frame follows it. -/
theorem chained_run_sample (k : Nat) : chained (Pseudo.expand (.run k) ++ .sample :: frameOps.tail) = true := by
  obtain ⟨hwf, -, -⟩ := runPseudoOpIsProgram (k + 1)
  obtain ⟨-, -, hsucc⟩ := runPseudoOpIsProgram k
  rw [hsucc] at hwf
  exact chained_of_programWf hwf

theorem count_pwmwr_run (k : Nat) : (Pseudo.expand (.run k)).count .pwmwr = k := by
  have hboot : bootOps.count .pwmwr = 0 := rfl
  have hframe : frameOps.count .pwmwr = 1 := rfl
  rw [Pseudo.expand, List.count_append, List.count_flatten, List.map_replicate, hboot, hframe]
  simp

theorem requestsOf_run (len k : Nat) :
    (Pseudo.expand (.run k)).flatMap (requestsOf len) =
      (List.replicate k (List.replicate len (0 : BitVec 2) ++ [1, 2])).flatten := by
  have hboot : bootOps.flatMap (requestsOf len) = [] := rfl
  have hframe : frameOps.flatMap (requestsOf len) = List.replicate len 0 ++ [1, 2] := by
    simp [frameOps, requestsOf]
  rw [Pseudo.expand, List.flatMap_append, hboot, List.nil_append, List.flatMap_def, List.map_flatten,
    List.flatten_flatten, List.map_replicate, List.map_replicate, ← List.flatMap_def, hframe]

/-- Settles O9: the reset state has the invariant and stands at the head of `RUN k`, which is in the
next-stage order. -/
theorem runFromResetCompletesFrames : Obligations.RunFromResetCompletesFrames := by
  intro p v k hrst
  obtain ⟨t, hrun, hstage, hperformed⟩ := run_performs (inv_resetWith p v) hrst (chained_run_sample k)
    (fun i hi => by cases hi; rfl)
  obtain ⟨-, hlength, -⟩ := runPseudoOpIsProgram k
  rw [hlength] at hrun
  refine ⟨t, hrun, hstage, ?_, ?_⟩
  · simpa [count_pwmwr_run] using hperformed.duties
  · simpa [requestsOf_run] using hperformed.conversions

end Sys2Proof
end

section
/-! PROOF. The PWM driver's two operations and the PWM timer: a clock moves the position by one modulo the
period, so a cycle is 510 clocks, passes TOP once and holds the pin high for twice the compare value
(41_pwm_driver.md R110 to R118). -/

namespace Sys2Proof.Machine

/-- The fields PWMINIT writes (41_pwm_driver.md R110, R111). -/
theorem phaseCorrectConfig_fields :
    tcfgInv phaseCorrectConfig = false ∧ tcfgPresc phaseCorrectConfig = false ∧
      tcfgMode phaseCorrectConfig = true ∧ tcfgEn phaseCorrectConfig = true := by decide

/-! A timer clock, by direction and counter (41_pwm_driver.md R116) -/

section
variable (ocr : BitVec 16) (a : BitVec 8) {c : BitVec 8}

theorem Timer.tick_up (h : c ≠ 255) : Timer.tick ocr ⟨a, c, .up⟩ = ⟨a, c + 1, .up⟩ :=
  if_neg h

theorem Timer.tick_top : Timer.tick ocr ⟨a, 255, .up⟩ = ⟨BitVec.ofNat 8 ocr.toNat, 254, .down⟩ := by
  rw [BitVec.ofNat_toNat]
  rfl

theorem Timer.tick_down (h : c ≠ 0) : Timer.tick ocr ⟨a, c, .down⟩ = ⟨a, c - 1, .down⟩ :=
  if_neg h

theorem Timer.tick_bottom : Timer.tick ocr ⟨a, 0, .down⟩ = ⟨a, 1, .up⟩ := rfl

end

/-! Timer clocks under a configuration -/

theorem Timer.ticks_succ (ocr : BitVec 16) (k : Nat) (t : Timer) :
    Timer.ticks ocr (k + 1) t = Timer.ticks ocr k (t.tick ocr) := rfl

theorem Timer.clocks_of_running {c : BitVec 4} (h : timerRunning c = true) (ocr : BitVec 16) (k : Nat)
    (t : Timer) : Timer.clocks c ocr k t = Timer.ticks ocr k t := if_pos h

theorem Timer.clocks_of_disabled {c : BitVec 4} (h : tcfgEn c = false) (ocr : BitVec 16) (k : Nat)
    (t : Timer) : Timer.clocks c ocr k t = t := by
  simp [Timer.clocks, timerRunning, h]

/-! The position -/

theorem Timer.position_lt (t : Timer) : t.position < 510 := by
  obtain ⟨a, c, d⟩ := t
  cases d with
  | up => exact c.isLt.trans (by decide)
  | down => exact Nat.mod_lt _ (by decide)

/-- `k` timer clocks move the position by `k`, modulo the period. -/
theorem Timer.Turned.ticks_position {t : Timer} (h : t.Turned) (ocr : BitVec 16) (k : Nat) :
    (Timer.ticks ocr k t).position = (t.position + k) % 510 := by
  induction k generalizing t with
  | zero => exact (Nat.mod_eq_of_lt t.position_lt).symm
  | succ k ih =>
    rw [Timer.ticks_succ, ih (h.tick ocr), Timer.tick_position ocr t h, Config.pwmPeriod, Nat.mod_add_mod,
      Nat.add_assoc, Nat.add_comm 1 k]

/-! The latch of the compare value (41_pwm_driver.md R115) -/

/-- `OCR_ACT` is written at position 255, which is TOP, and nowhere else. -/
theorem Timer.Turned.tick_ocrAct {t : Timer} (h : t.Turned) (ocr : BitVec 16) :
    (t.tick ocr).ocrAct = if t.position = 255 then BitVec.ofNat 8 ocr.toNat else t.ocrAct := by
  obtain ⟨a, c, d⟩ := t
  have hne {v : BitVec 8} (hv : c ≠ v) : c.toNat ≠ v.toNat := fun e => hv (BitVec.eq_of_toNat_eq e)
  cases d with
  | up =>
    by_cases htop : c = 255
    · subst htop
      rw [Timer.tick_top]
      rfl
    · rw [Timer.tick_up ocr a htop]
      exact (if_neg (hne htop)).symm
  | down =>
    have hturned : c.toNat ≠ 255 := hne (h rfl)
    have hposition : (⟨a, c, .down⟩ : Timer).position ≠ 255 := by
      simp only [Timer.position, Config.pwmPeriod]
      omega
    rw [if_neg hposition]
    by_cases h0 : c = 0
    · rw [h0, Timer.tick_bottom]
    · rw [Timer.tick_down ocr a h0]

/-- A compare value that is in force stays in force. -/
theorem Timer.Turned.ticks_ocrAct_steady {t : Timer} (h : t.Turned) {ocr : BitVec 16}
    (ha : t.ocrAct = BitVec.ofNat 8 ocr.toNat) (k : Nat) :
    (Timer.ticks ocr k t).ocrAct = BitVec.ofNat 8 ocr.toNat := by
  induction k generalizing t with
  | zero => exact ha
  | succ k ih => exact ih (h.tick ocr) (by rw [h.tick_ocrAct, ha, ite_self])

/-- Clocks that pass TOP put the compare value in force. -/
theorem Timer.Turned.ticks_ocrAct_latched {t : Timer} (h : t.Turned) (ocr : BitVec 16) {j k : Nat}
    (hj : j < k) (htop : (t.position + j) % 510 = 255) :
    (Timer.ticks ocr k t).ocrAct = BitVec.ofNat 8 ocr.toNat := by
  induction j generalizing t k with
  | zero =>
    obtain ⟨k, rfl⟩ := Nat.exists_eq_add_of_lt hj
    have hposition : t.position = 255 := by rwa [Nat.add_zero, Nat.mod_eq_of_lt t.position_lt] at htop
    exact (h.tick ocr).ticks_ocrAct_steady (by rw [h.tick_ocrAct, if_pos hposition]) _
  | succ j ih =>
    obtain ⟨k, rfl⟩ : ∃ n, k = n + 1 := ⟨k - 1, by omega⟩
    refine ih (h.tick ocr) (Nat.lt_of_succ_lt_succ hj) ?_
    rw [Timer.tick_position ocr t h, Config.pwmPeriod, Nat.mod_add_mod, Nat.add_assoc, Nat.add_comm 1 j]
    exact htop

/-! The pin (41_pwm_driver.md R117) -/

/-- The level of the pin of an enabled timer with the compare value `d`, `n` clocks after the counter's
zero. -/
def highAfter (d n : Nat) : Bool := decide (n % 510 < d) || decide (510 - d ≤ n % 510)

theorem highAfter_iff {d n : Nat} : highAfter d n = true ↔ n % 510 < d ∨ 510 - d ≤ n % 510 := by
  rw [highAfter, Bool.or_eq_true, decide_eq_true_eq, decide_eq_true_eq]

theorem State.pwmOut_eq (s : State) :
    s.pwmOut = (tcfgEn s.tcfg && highAfter s.timer.ocrAct.toNat s.timer.position) := by
  rw [highAfter, Nat.mod_eq_of_lt s.timer.position_lt]
  rfl

theorem State.pwmOut_of_disabled {s : State} (h : tcfgEn s.tcfg = false) : s.pwmOut = false := by
  rw [State.pwmOut_eq, h, Bool.false_and]

theorem State.pwmOut_of_enabled {s : State} (h : tcfgEn s.tcfg = true) :
    s.pwmOut = highAfter s.timer.ocrAct.toNat s.timer.position := by
  rw [State.pwmOut_eq, h, Bool.true_and]

theorem highAfter_zero (n : Nat) : highAfter 0 n = false := by
  have hn : n % 510 < 510 := Nat.mod_lt _ (by decide)
  simp [highAfter, hn]

theorem highAfter_full (n : Nat) : highAfter 255 n = true :=
  highAfter_iff.2 (lt_or_ge (n % 510) 255)

theorem highAfter_periodic (d : Nat) : Function.Periodic (highAfter d) 510 := fun n => by
  simp only [highAfter, Nat.add_mod_right]

/-- From the counter's zero the pin is high for `d` clocks, then low, then high for the last `d`. -/
theorem count_highAfter {d : Nat} (hd : d ≤ 255) :
    Nat.count (fun n => highAfter d n = true) 510 = 2 * d := by
  have hfirst : Nat.count (fun n => highAfter d n = true) d = d :=
    Nat.count_iff_forall.2 fun n hn => by
      rw [highAfter_iff]
      omega
  have hmiddle : Nat.count (fun n => highAfter d (d + n) = true) (510 - 2 * d) = 0 :=
    Nat.count_iff_forall_not.2 fun n hn => by
      rw [highAfter_iff]
      omega
  have hlast : Nat.count (fun n => highAfter d (d + (510 - 2 * d) + n) = true) d = d :=
    Nat.count_iff_forall.2 fun n hn => by
      rw [highAfter_iff]
      omega
  calc Nat.count (fun n => highAfter d n = true) 510
      = Nat.count (fun n => highAfter d n = true) (d + (510 - 2 * d) + d) := by congr 1; omega
    _ = 2 * d := by rw [Nat.count_add, Nat.count_add, hfirst, hmiddle, hlast]; omega

/-- A period counts alike from wherever it is counted. -/
theorem count_add_of_periodic {f : Nat → Bool} {a : Nat} (hf : Function.Periodic f a) (n : Nat) :
    Nat.count (fun k => f (n + k) = true) a = Nat.count (fun k => f k = true) a := by
  have hshift (k : Nat) : f (a + k) = f k := by rw [Nat.add_comm, hf]
  have h : Nat.count (fun k => f k = true) (n + a) = Nat.count (fun k => f k = true) (a + n) := by
    rw [Nat.add_comm]
  simp only [Nat.count_add, hshift] at h
  omega

/-- Clocks of a running timer with a steady compare value move the pin along its cycle. -/
theorem State.pwmOut_clocks {s : State} (hrun : timerRunning s.tcfg = true) (h : s.timer.Turned)
    (ha : s.timer.ocrAct = BitVec.ofNat 8 s.ocr.toNat) (k : Nat) :
    ({ s with timer := Timer.clocks s.tcfg s.ocr k s.timer } : State).pwmOut =
      highAfter s.timer.ocrAct.toNat (s.timer.position + k) := by
  have hen : tcfgEn s.tcfg = true := (Bool.and_eq_true_iff.1 hrun).1
  calc ({ s with timer := Timer.clocks s.tcfg s.ocr k s.timer } : State).pwmOut
      = highAfter (Timer.clocks s.tcfg s.ocr k s.timer).ocrAct.toNat
          (Timer.clocks s.tcfg s.ocr k s.timer).position := State.pwmOut_of_enabled hen
    _ = highAfter s.timer.ocrAct.toNat ((s.timer.position + k) % 510) := by
      rw [Timer.clocks_of_running hrun, h.ticks_position, h.ticks_ocrAct_steady ha, ha]
    _ = highAfter s.timer.ocrAct.toNat (s.timer.position + k) := (highAfter_periodic _).map_mod_nat _

end Sys2Proof.Machine

namespace Sys2Proof

open Machine

/-- Settles O12, by what PWMINIT answers. -/
theorem pwminitConfiguresTimer : Obligations.PwminitConfiguresTimer := fun s =>
  ⟨_, exec_pwminit s, rfl, phaseCorrectConfig_fields⟩

/-- Settles O13, by what PWMWR answers: the duty has 8 bits, so its extension has its value. -/
theorem pwmwrStoresDuty : Obligations.PwmwrStoresDuty := fun s =>
  ⟨_, exec_pwmwr s, BitVec.toNat_setWidth_of_le (by decide), rfl, rfl⟩

/-- Settles O14, by the direction and the counter. -/
theorem timerTickTransitions : Obligations.TimerTickTransitions := by
  refine fun ocr a c => ⟨Timer.tick_up ocr a, Timer.tick_top ocr a, Timer.tick_down ocr a,
    Timer.tick_bottom ocr a, fun tcfg k t => ⟨fun hen => Timer.clocks_of_disabled hen ocr k t, ?_⟩⟩
  intro hen hmode
  have hrun : timerRunning tcfg = true := Bool.and_eq_true_iff.2 ⟨hen, hmode⟩
  simp only [Timer.clocks_of_running hrun]
  exact ⟨rfl, Timer.ticks_succ ocr k t⟩

/-- Settles O15: the position moves by one each clock, so 510 clocks pass every position once, TOP too. -/
theorem timerPeriodIs510 : Obligations.TimerPeriodIs510 := by
  intro ocr t (h : t.Turned)
  have hlt := t.position_lt
  refine ⟨?position, ?latch, fun k hpos hk => ?distinct⟩
  case position =>
    rw [h.ticks_position]
    omega
  case latch =>
    exact h.ticks_ocrAct_latched ocr (j := (765 - t.position) % 510) (by omega) (by omega)
  case distinct =>
    rw [h.ticks_position]
    omega

/-- Settles O16: the clocks of a period meet the pin's levels of one cycle, from where it stands. -/
theorem pwmHighTime : Obligations.PwmHighTime := by
  refine ⟨fun s hrun (h : s.timer.Turned) ha => ?_, fun s => State.pwmOut_of_disabled⟩
  have hd : s.timer.ocrAct.toNat ≤ 255 := Nat.le_of_lt_succ s.timer.ocrAct.isLt
  rw [← count_highAfter hd, ← count_add_of_periodic (highAfter_periodic _) s.timer.position, Nat.count,
    List.countP_eq_length_filter]
  simp only [State.pwmOut_clocks hrun h ha, Bool.decide_eq_true]

/-- Settles O17: with compare value 0 no position is high, with 255 every one is. -/
theorem pinEndPoints : Obligations.PinEndPoints := by
  refine fun s hen => ⟨fun hzero _ => ?off, fun hfull => ?on⟩
  case off =>
    rw [State.pwmOut_of_enabled hen, hzero]
    exact highAfter_zero _
  case on =>
    rw [State.pwmOut_of_enabled hen, hfull]
    exact highAfter_full _

end Sys2Proof
end

section
/-! PROOF. The fixed-point series is within 48 units of 2^−160 of the real cosine and sine
(00_scope.md R9, P3, U3; log 4): each of its terms loses less than one unit, and what a term leaves to the
real value is never more than that term. -/

namespace Sys2Proof.Machine

/-! The remainders of the real series -/

/-- What the Taylor series of `cos` (even `j`) or `sin` (odd `j`) holds from the power `j` on, with the sign
that makes its first term positive. -/
noncomputable def Trig.remainder (x : ℝ) : Nat → ℝ
  | 0 => Real.cos x
  | 1 => Real.sin x
  | j + 2 => x ^ j / j.factorial - Trig.remainder x j

theorem Trig.hasDerivAt_pow_div_factorial (j : Nat) (x : ℝ) :
    HasDerivAt (fun y : ℝ => y ^ (j + 1) / (j + 1).factorial) (x ^ j / j.factorial) x := by
  have hratio : x ^ j / j.factorial = ((j + 1 : Nat) : ℝ) * x ^ j / (j + 1).factorial := by
    rw [Nat.factorial_succ, Nat.cast_mul, mul_div_mul_left _ _ (Nat.cast_ne_zero.2 j.succ_ne_zero)]
  rw [hratio]
  exact (hasDerivAt_pow (j + 1) x).div_const _

/-- Each remainder is a primitive of the one before it. -/
theorem Trig.hasDerivAt_remainder : ∀ (j : Nat) (x : ℝ),
    HasDerivAt (fun y => Trig.remainder y (j + 1)) (Trig.remainder x j) x
  | 0, x => Real.hasDerivAt_sin x
  | 1, x => by
    have h := (Real.hasDerivAt_cos x).const_sub (1 : ℝ)
    simpa [Trig.remainder] using h
  | j + 2, x => (Trig.hasDerivAt_pow_div_factorial j x).sub (Trig.hasDerivAt_remainder j x)

theorem Trig.remainder_zero_succ : ∀ j : Nat, Trig.remainder 0 (j + 1) = 0
  | 0 => Real.sin_zero
  | 1 => by simp [Trig.remainder]
  | j + 2 => by simp [Trig.remainder, Trig.remainder_zero_succ j]

/-- A remainder is at most its first term: it holds of `cos`, and integrating keeps it. -/
theorem Trig.abs_remainder_le (j : Nat) : ∀ x : ℝ, 0 ≤ x → |Trig.remainder x j| ≤ x ^ j / j.factorial := by
  induction j with
  | zero =>
    intro x _
    simpa [Trig.remainder] using Real.abs_cos_le_one x
  | succ j ih =>
    intro x hx
    have hpow := Trig.hasDerivAt_pow_div_factorial j
    have hrem := Trig.hasDerivAt_remainder j
    have hle := image_norm_le_of_norm_deriv_right_le_deriv_boundary (a := 0) (b := x)
      (fun y _ => (hrem y).continuousAt.continuousWithinAt) (fun y _ => (hrem y).hasDerivWithinAt)
      (by simp [Trig.remainder_zero_succ]) (fun y => hpow y) (fun y hy => ih y hy.1)
    exact hle ⟨hx, le_rfl⟩

/-- A remainder in units of its first term. -/
noncomputable def Trig.tail (x : ℝ) (j : Nat) : ℝ := Trig.remainder x j / (x ^ j / j.factorial)

theorem Trig.abs_tail_le_one {x : ℝ} (hx : 0 ≤ x) (j : Nat) : |Trig.tail x j| ≤ 1 := by
  have hpos : 0 ≤ x ^ j / j.factorial := by positivity
  rw [Trig.tail, abs_div, abs_of_nonneg hpos]
  exact div_le_one_of_le₀ (Trig.abs_remainder_le j x hx) hpos

/-- The step of the series: the ratio of a term to the one before it. -/
theorem Trig.tail_eq {x : ℝ} (hx : 0 < x) (j : Nat) :
    Trig.tail x j = 1 - x * x / ((j + 1) * (j + 2)) * Trig.tail x (j + 2) := by
  have hfact : ((j.factorial : ℕ) : ℝ) ≠ 0 := Nat.cast_ne_zero.2 j.factorial_ne_zero
  simp only [Trig.tail, Trig.remainder, Nat.factorial_succ]
  push_cast
  field_simp
  ring

theorem Trig.tail_zero (x : ℝ) : Trig.tail x 0 = Real.cos x := by
  simp [Trig.tail, Trig.remainder]

theorem Trig.mul_tail_one {x : ℝ} (hx : 0 < x) : x * Trig.tail x 1 = Real.sin x := by
  simp [Trig.tail, Trig.remainder, mul_div_cancel₀ _ hx.ne']

/-! The series in fixed point -/

/-- The term that a fixed-point series of unit `u` would take next after its last one. -/
def Trig.nextTerm (u x2 : Nat) : Nat → Nat → Nat → Nat
  | 0, _, t => t
  | fuel + 1, j, t => Trig.nextTerm u x2 fuel (j + 2) (t * x2 / (u * u * ((j + 1) * (j + 2))))

theorem Trig.nextTerm_mono {u x2 y2 : Nat} (hxy : x2 ≤ y2) (fuel : Nat) :
    ∀ {j s t : Nat}, s ≤ t → Trig.nextTerm u x2 fuel j s ≤ Trig.nextTerm u y2 fuel j t := by
  induction fuel with
  | zero => exact id
  | succ fuel ih => exact fun hst => ih (Nat.div_le_div_right (Nat.mul_le_mul hst hxy))

/-- Up to 7, the 48 terms of both series run down to 0. -/
theorem Trig.nextTerm_eq_zero {a j t : Nat} (ha : a ≤ 7 * Trig.unit) (hj : j < 2) (ht : t ≤ 7 * Trig.unit) :
    Trig.nextTerm Trig.unit (a * a) 48 j t = 0 := by
  have hmono := Trig.nextTerm_mono (u := Trig.unit) (Nat.mul_le_mul ha ha) 48 (j := j) ht
  have hzero : Trig.nextTerm Trig.unit (7 * Trig.unit * (7 * Trig.unit)) 48 j (7 * Trig.unit) = 0 := by
    interval_cases j
    · decide +kernel
    · decide +kernel
  omega

theorem Trig.unit_pos : (0 : ℝ) < Trig.unit := by
  rw [Trig.unit]
  positivity

/-- Rounding a quotient down loses less than one unit. -/
theorem Trig.abs_sub_div_le (n : Nat) {d : Nat} (hd : 0 < d) : |(n : ℝ) / d - (n / d : Nat)| ≤ 1 := by
  have hd' : (0 : ℝ) < d := Nat.cast_pos.2 hd
  have hle : ((n / d : Nat) : ℝ) ≤ n / d := Nat.cast_div_le
  have hlt : (n : ℝ) / d < (n / d : Nat) + 1 := by
    rw [div_lt_iff₀ hd']
    exact_mod_cast Nat.lt_mul_of_div_lt (Nat.lt_succ_self _) hd
  exact abs_le.2 ⟨by linarith, by linarith⟩

/-- Each term of the fixed-point series adds at most one unit of error, and stopping adds at most the term
left out. -/
theorem Trig.abs_series_sub_le {x : ℝ} {a : Nat} (hx : 0 < x) (ha : x * Trig.unit = a) (fuel : Nat) :
    ∀ j t : Nat, |(Trig.series (a * a) fuel j t : ℝ) - t * Trig.tail x j| ≤
      fuel + Trig.nextTerm Trig.unit (a * a) fuel j t := by
  induction fuel with
  | zero =>
    intro j t
    simp only [Trig.series, Trig.nextTerm, Int.cast_zero, zero_sub, abs_neg, abs_mul, Nat.abs_cast,
      Nat.cast_zero, zero_add]
    exact mul_le_of_le_one_right (Nat.cast_nonneg _) (Trig.abs_tail_le_one hx.le j)
  | succ fuel ih =>
    intro j t
    obtain ⟨t', ht'⟩ : ∃ t', t * (a * a) / (Trig.unit * Trig.unit * ((j + 1) * (j + 2))) = t' := ⟨_, rfl⟩
    have hunit := Trig.unit_pos
    have hfloor : |t * (x * x / ((j + 1) * (j + 2))) - t'| ≤ 1 := by
      have h := Trig.abs_sub_div_le (t * (a * a)) (d := Trig.unit * Trig.unit * ((j + 1) * (j + 2)))
        (by unfold Trig.unit; positivity)
      rw [ht'] at h
      convert h using 3
      push_cast
      rw [← ha]
      field_simp
    have hloss : |(t * (x * x / ((j + 1) * (j + 2))) - t') * Trig.tail x (j + 2)| ≤ 1 := by
      rw [abs_mul]
      exact mul_le_one₀ hfloor (abs_nonneg _) (Trig.abs_tail_le_one hx.le _)
    have hsplit : ((Trig.series (a * a) (fuel + 1) j t : Int) : ℝ) - t * Trig.tail x j =
        (t * (x * x / ((j + 1) * (j + 2))) - t') * Trig.tail x (j + 2) -
          ((Trig.series (a * a) fuel (j + 2) t' : Int) - t' * Trig.tail x (j + 2)) := by
      rw [Trig.series, ht', Trig.tail_eq hx j]
      push_cast
      ring
    rw [hsplit, Trig.nextTerm, ht']
    push_cast
    linarith [abs_sub ((t * (x * x / ((j + 1) * (j + 2))) - t') * Trig.tail x (j + 2))
      ((Trig.series (a * a) fuel (j + 2) t' : Int) - t' * Trig.tail x (j + 2)), ih (j + 2) t']

theorem Trig.abs_series_sub_le_48 {x : ℝ} {a j t : Nat} (hx : 0 < x) (ha : x * Trig.unit = a)
    (ha7 : a ≤ 7 * Trig.unit) (hj : j < 2) (ht : t ≤ 7 * Trig.unit) :
    |(Trig.series (a * a) 48 j t : ℝ) - t * Trig.tail x j| ≤ 48 := by
  simpa [Trig.nextTerm_eq_zero ha7 hj ht] using Trig.abs_series_sub_le hx ha 48 j t

/-! Arguments that the fixed point holds exactly -/

/-- A positive argument up to 7 that is a multiple of 2^−160. -/
def Trig.inFixedPoint (x : NumWord) : Bool :=
  !F64.isNeg x && decide (0 < Trig.arg x) && decide (Trig.arg x ≤ 7 * Trig.unit) &&
    decide (Trig.arg x * F64.scale = F64.mag x * Trig.unit)

theorem Trig.inFixedPoint_spec {x : NumWord} (h : Trig.inFixedPoint x = true) :
    0 < ((F64.toRat x : ℚ) : ℝ) ∧ ((F64.toRat x : ℚ) : ℝ) * Trig.unit = Trig.arg x ∧
      Trig.arg x ≤ 7 * Trig.unit := by
  simp only [Trig.inFixedPoint, Bool.and_eq_true, Bool.not_eq_true', decide_eq_true_eq] at h
  obtain ⟨⟨⟨hneg, hpos⟩, h7⟩, hexact⟩ := h
  have hscale : (0 : ℝ) < F64.scale := F64.scale_cast_pos
  have harg : ((F64.toRat x : ℚ) : ℝ) * Trig.unit = Trig.arg x := by
    rw [F64.toRat, F64.val, hneg, if_neg Bool.false_ne_true]
    push_cast
    rw [div_mul_eq_mul_div, div_eq_iff hscale.ne']
    exact_mod_cast hexact.symm
  refine ⟨pos_of_mul_pos_left (b := (Trig.unit : ℝ)) ?_ Trig.unit_pos.le, harg, h7⟩
  rw [harg]
  exact_mod_cast hpos

/-- The series that `cosRef` rounds. -/
def Trig.cosSeries (x : NumWord) : Int := Trig.series (Trig.arg x * Trig.arg x) 48 0 Trig.unit

/-- The series that `sinRef` rounds. -/
def Trig.sinSeries (x : NumWord) : Int := Trig.series (Trig.arg x * Trig.arg x) 48 1 (Trig.arg x)

theorem Trig.cosRef_eq (x : NumWord) : Trig.cosRef x = Trig.toWord (Trig.cosSeries x) := rfl

theorem Trig.sinRef_eq (x : NumWord) : Trig.sinRef x = Trig.toWord (Trig.sinSeries x) := rfl

theorem Trig.abs_cosSeries_sub_le {x : NumWord} (h : Trig.inFixedPoint x = true) :
    |(Trig.cosSeries x : ℝ) - Real.cos ((F64.toRat x : ℚ) : ℝ) * Trig.unit| ≤ 48 := by
  obtain ⟨hpos, harg, h7⟩ := Trig.inFixedPoint_spec h
  have hnear := Trig.abs_series_sub_le_48 (j := 0) (t := Trig.unit) hpos harg h7 (by norm_num) (by omega)
  rwa [Trig.tail_zero, mul_comm (Trig.unit : ℝ)] at hnear

theorem Trig.abs_sinSeries_sub_le {x : NumWord} (h : Trig.inFixedPoint x = true) :
    |(Trig.sinSeries x : ℝ) - Real.sin ((F64.toRat x : ℚ) : ℝ) * Trig.unit| ≤ 48 := by
  obtain ⟨hpos, harg, h7⟩ := Trig.inFixedPoint_spec h
  have hnear := Trig.abs_series_sub_le_48 (j := 1) hpos harg h7 (by norm_num) h7
  rwa [← harg, mul_right_comm, Trig.mul_tail_one hpos] at hnear

end Sys2Proof.Machine
end

section
/-! PROOF. The library's `cos` and `sin` at every argument of the window and of the twiddle ROM are within one
last place of the binary64 number nearest to the real value (92_eei_decisions.md P3;
93_implementation_defined.md U3). Which number that is depends on how far each value lies from a midpoint of
the format; that is evaluated argument by argument, and all else is general. -/

namespace Sys2Proof.Machine

/-! A real number between two quotients that round to one word -/

/-- Two quotients that round to one word have every number between them nearest to it. -/
theorem F64.nearestToReal_of_round {neg : Bool} {a b d : Nat} {r : NumWord} {y : ℝ} (hd : 0 < d)
    (ha : F64.round neg a d = r) (hb : F64.round neg b d = r) (hf : F64.isFinite r = true)
    (hneg : neg = true → y ≤ 0) (hpos : neg = false → 0 ≤ y)
    (hlo : (a : ℝ) / d ≤ |y| * F64.scale) (hhi : |y| * F64.scale ≤ (b : ℝ) / d) :
    F64.nearestToReal y r := by
  have hscale : (0 : ℝ) < F64.scale := F64.scale_cast_pos
  have hfields : ∀ n, F64.round neg n d = r → F64.roundFields n d = r.toNat % 2 ^ 63 := by
    rintro n rfl
    have htop := (F64.round_spec neg n d).2.2.1 hf
    rw [F64.round, F64.fields_pack _ _ (htop.trans (by norm_num))]
    rw [F64.roundMag_eq] at htop ⊢
    omega
  have hbetween : F64.Between (r.toNat % 2 ^ 63) |y * F64.scale| := by
    obtain ⟨-, hbelow⟩ := F64.roundFields_between (K := ℝ) a hd
    obtain ⟨habove, -⟩ := F64.roundFields_between (K := ℝ) b hd
    rw [hfields a ha] at hbelow
    rw [hfields b hb] at habove
    rw [abs_mul, abs_of_pos hscale]
    exact ⟨(mul_le_mul_of_nonneg_left hhi zero_le_two).trans habove,
      fun v hv => (hbelow v hv).trans (mul_le_mul_of_nonneg_left hlo zero_le_two)⟩
  have hsign : 0 ≤ (F64.val r : ℝ) * (y * F64.scale) := by
    rw [← mul_assoc]
    refine mul_nonneg ?_ hscale.le
    have hr : F64.isNeg r = neg := ha ▸ (F64.round_spec neg a d).1
    cases neg with
    | true => exact mul_nonneg_of_nonpos_of_nonpos (by exact_mod_cast F64.val_nonpos_of_neg hr) (hneg rfl)
    | false => exact mul_nonneg (by exact_mod_cast F64.val_nonneg_of_not_neg hr) (hpos rfl)
  refine ⟨hf, fun c _ => ?_⟩
  rw [F64.abs_cast_toRat_sub, F64.abs_cast_toRat_sub]
  exact div_le_div_of_nonneg_right (F64.val_near hsign hbetween c) hscale.le

/-- A word is nearest to its own value. -/
theorem F64.nearestToReal_self {r : NumWord} (hf : F64.isFinite r = true) :
    F64.nearestToReal ((F64.toRat r : ℚ) : ℝ) r :=
  ⟨hf, fun c _ => by simp⟩

/-- The word of π is the nearest one (42_window_table.md R131): the 20-digit decimals below and above π both
round to it. -/
theorem F64.nearestToReal_pi : F64.nearestToReal Real.pi 0x400921FB54442D18 := by
  have hscale : (0 : ℝ) ≤ F64.scale := Nat.cast_nonneg _
  have hlo := mul_le_mul_of_nonneg_right Real.pi_gt_d20.le hscale
  have hhi := mul_le_mul_of_nonneg_right Real.pi_lt_d20.le hscale
  refine F64.nearestToReal_of_round (neg := false) (a := 314159265358979323846 * F64.scale)
    (b := 314159265358979323847 * F64.scale) (d := 10 ^ 20) (by norm_num) (by decide +kernel)
    (by decide +kernel) (by decide) nofun (fun _ => Real.pi_pos.le) ?_ ?_
  · rw [abs_of_pos Real.pi_pos]
    push_cast
    linarith
  · rw [abs_of_pos Real.pi_pos]
    push_cast
    linarith

/-! Rounding as the kernel evaluates it: the binade by bisection -/

/-- The bits `k − 1 … 0` of the binary logarithm of `n`, given those above. -/
def F64.log2Bits (n : Nat) : Nat → Nat → Nat
  | 0, r => r
  | k + 1, r => if 2 ^ (r + 2 ^ k) ≤ n then F64.log2Bits n k (r + 2 ^ k) else F64.log2Bits n k r

theorem F64.log2Bits_eq {n : Nat} : ∀ k r, 2 ^ r ≤ n → n < 2 ^ (r + 2 ^ k) →
    F64.log2Bits n k r = Nat.log2 n
  | 0, r, hlo, hhi => by
    have hn : n ≠ 0 := by
      rintro rfl
      exact absurd hlo (by simp)
    exact ((Nat.log2_eq_iff hn).2 ⟨hlo, hhi⟩).symm
  | k + 1, r, hlo, hhi => by
    unfold F64.log2Bits
    split
    · rename_i h
      exact F64.log2Bits_eq k _ h (by rwa [Nat.add_assoc, ← Nat.two_mul, ← pow_succ'])
    · rename_i h
      exact F64.log2Bits_eq k r hlo (by omega)

/-- `F64.round`, evaluated with the bisection where its range allows. -/
def F64.quickRound (neg : Bool) (n d : Nat) : NumWord :=
  if 0 < n / d ∧ n / d < 2 ^ 2 ^ 12 then
    F64.pack neg (min ((F64.log2Bits (n / d) 12 0 - 52) * 2 ^ 52 +
      F64.nearestEven n (d * 2 ^ (F64.log2Bits (n / d) 12 0 - 52))) (2047 * 2 ^ 52))
  else F64.round neg n d

theorem F64.quickRound_eq (neg : Bool) (n d : Nat) : F64.quickRound neg n d = F64.round neg n d := by
  unfold F64.quickRound
  split
  · rename_i h
    rw [F64.log2Bits_eq 12 0 h.1 (by rw [Nat.zero_add]; exact h.2)]
    rfl
  · rfl

/-- `F64.mul`, evaluated with `quickRound`. -/
def F64.quickMul (a b : NumWord) : NumWord :=
  if F64.isFinite a && F64.isFinite b then
    F64.quickRound (F64.isNeg a != F64.isNeg b) (F64.mag a * F64.mag b) F64.scale
  else F64.mul a b

theorem F64.quickMul_eq (a b : NumWord) : F64.quickMul a b = F64.mul a b := by
  unfold F64.quickMul
  split
  · rename_i h
    obtain ⟨ha, hb⟩ := Bool.and_eq_true_iff.1 h
    rw [F64.quickRound_eq, F64.mul_finite ha hb]
  · rfl

/-- `F64.div`, evaluated with `quickRound`. -/
def F64.quickDiv (a b : NumWord) : NumWord :=
  if F64.isFinite a && F64.isFinite b && F64.mag b != 0 then
    F64.quickRound (F64.isNeg a != F64.isNeg b) (F64.mag a * F64.scale) (F64.mag b)
  else F64.div a b

theorem F64.quickDiv_eq (a b : NumWord) : F64.quickDiv a b = F64.div a b := by
  unfold F64.quickDiv
  split
  · rename_i h
    simp only [Bool.and_eq_true, bne_iff_ne] at h
    obtain ⟨⟨ha, hb⟩, h0⟩ := h
    rw [F64.quickRound_eq, F64.div_finite ha hb h0]
  · rfl

/-! A real number near a fixed-point number -/

/-- `Trig.toWord`, evaluated with `quickRound`. -/
def Trig.quickWord (v : Int) : NumWord := F64.quickRound (decide (v < 0)) (v.natAbs * F64.scale) Trig.unit

theorem Trig.quickWord_eq (v : Int) : Trig.quickWord v = Trig.toWord v := F64.quickRound_eq _ _ _

/-- The numbers within 48 units of a fixed-point number all have its sign, round to its word, and that word
is in `[−1, 1]`. -/
def Trig.settled (v : Int) : Bool :=
  decide (48 < v.natAbs) &&
  F64.quickRound (decide (v < 0)) ((v.natAbs - 48) * F64.scale) Trig.unit == Trig.quickWord v &&
  F64.quickRound (decide (v < 0)) ((v.natAbs + 48) * F64.scale) Trig.unit == Trig.quickWord v &&
  decide ((Trig.quickWord v).toNat % 2 ^ 63 ≤ F64.one.toNat)

theorem Trig.toWord_nearest {v : Int} {y : ℝ} (h : Trig.settled v = true)
    (hv : |(v : ℝ) - y * Trig.unit| ≤ 48) :
    F64.nearestToReal y (Trig.toWord v) ∧ (Trig.toWord v).toNat % 2 ^ 63 ≤ F64.one.toNat := by
  simp only [Trig.settled, Trig.quickWord_eq, F64.quickRound_eq, Bool.and_eq_true, decide_eq_true_eq,
    beq_iff_eq] at h
  obtain ⟨⟨⟨hbig, hlo⟩, hhi⟩, hone⟩ := h
  have hunit := Trig.unit_pos
  have hscale : (0 : ℝ) ≤ F64.scale := Nat.cast_nonneg _
  obtain ⟨hvlo, hvhi⟩ := abs_le.1 hv
  have hsign : (decide (v < 0) = true → y ≤ 0) ∧ (decide (v < 0) = false → 0 ≤ y) := by
    constructor
    · intro hneg
      have hv48 : (v : ℝ) < -48 := by
        have := of_decide_eq_true hneg
        exact_mod_cast (by omega : v < -48)
      by_contra! hy
      linarith [mul_pos hy hunit]
    · intro hnonneg
      have hv48 : (48 : ℝ) < v := by
        have := of_decide_eq_false hnonneg
        exact_mod_cast (by omega : 48 < v)
      by_contra! hy
      linarith [mul_neg_of_neg_of_pos hy hunit]
  have habs : |(v.natAbs : ℝ) - |y| * Trig.unit| ≤ 48 := by
    have h := (abs_abs_sub_abs_le (v : ℝ) (y * Trig.unit)).trans hv
    rwa [abs_mul, abs_of_pos hunit, ← Int.cast_abs, Int.abs_eq_natAbs, Int.cast_natCast] at h
  obtain ⟨hnlo, hnhi⟩ := abs_le.1 habs
  have hfin : F64.isFinite (Trig.toWord v) = true :=
    (F64.isFinite_iff _).2 (lt_of_le_of_lt hone (by decide))
  refine ⟨F64.nearestToReal_of_round (by unfold Trig.unit; positivity) hlo hhi hfin hsign.1 hsign.2
    ?_ ?_, hone⟩
  · rw [div_le_iff₀ hunit, Nat.cast_mul, Nat.cast_sub hbig.le, mul_right_comm]
    refine mul_le_mul_of_nonneg_right ?_ hscale
    push_cast
    linarith
  · rw [le_div_iff₀ hunit, Nat.cast_mul, mul_right_comm]
    refine mul_le_mul_of_nonneg_right ?_ hscale
    push_cast
    linarith

/-! The last place -/

/-- Moving the last place, kept in `[−1, 1]`, leaves a word of `[−1, 1]` within one last place. -/
theorem Trig.lastPlaceApart_lastPlace (d : Config.LastPlace) {r : NumWord}
    (h : r.toNat % 2 ^ 63 ≤ F64.one.toNat) : F64.lastPlaceApart r (Trig.lastPlace d r) := by
  have hone : F64.one.toNat < 2 ^ 63 := by decide
  have hm : min (Trig.lastPlaceFields d (r.toNat % 2 ^ 63)) F64.one.toNat < 2 ^ 63 := by omega
  unfold Trig.lastPlace
  refine ⟨F64.isNeg_pack _ _ hm, ?_⟩
  rw [F64.fields_pack _ _ hm]
  generalize r.toNat % 2 ^ 63 = m at h
  cases d with
  | same => simp only [Trig.lastPlaceFields]; omega
  | smaller => simp only [Trig.lastPlaceFields]; omega
  | larger => simp only [Trig.lastPlaceFields]; omega

theorem F64.lastPlaceApart_refl (r : NumWord) : F64.lastPlaceApart r r :=
  ⟨rfl, Nat.le_succ _, Nat.le_succ _⟩

theorem Trig.cos_of_cosRef_eq_one {x : NumWord} (h : Trig.cosRef x = F64.one) : Trig.cos x = F64.one := by
  rw [Trig.cos, if_pos h]

theorem Trig.lastPlaceApart_cos {x : NumWord} (h : (Trig.cosRef x).toNat % 2 ^ 63 ≤ F64.one.toNat) :
    F64.lastPlaceApart (Trig.cosRef x) (Trig.cos x) := by
  unfold Trig.cos
  split
  · rename_i hone
    rw [hone]
    exact F64.lastPlaceApart_refl _
  · exact Trig.lastPlaceApart_lastPlace _ h

/-! A zero, and the word of 2π -/

theorem Trig.cosRef_of_zero {x : NumWord} (h : F64.mag x = 0) : Trig.cosRef x = F64.one := by
  have hone : Trig.toWord (Trig.series (0 * 0) 48 0 Trig.unit) = F64.one := by decide +kernel
  rw [Trig.cosRef, Trig.arg, h, Nat.zero_mul, Nat.zero_div, hone]

theorem Trig.cos_of_zero {x : NumWord} (h : F64.mag x = 0) : Trig.cos x = F64.one :=
  Trig.cos_of_cosRef_eq_one (Trig.cosRef_of_zero h)

theorem Trig.sin_of_zero {x : NumWord} (h : F64.mag x = 0) : Trig.sin x = x := by
  rw [Trig.sin, if_pos h]

theorem Trig.cos_two_pi : Trig.cos 0x401921FB54442D18 = F64.one :=
  Trig.cos_of_cosRef_eq_one (by decide +kernel)

theorem F64.toRat_of_zero {x : NumWord} (h : F64.mag x = 0) : F64.toRat x = 0 := by
  rw [F64.toRat, F64.val_of_mag_zero h, Int.cast_zero, zero_div]

theorem F64.toRat_one : F64.toRat F64.one = 1 := by
  rw [F64.toRat, F64.val_one, Int.cast_natCast, div_self F64.scale_cast_pos.ne']

/-! Accuracy at one argument -/

/-- A library's value at an argument is within one last place of a binary64 number nearest to `y`. -/
def F64.nearNearest (y : ℝ) (w : NumWord) : Prop := ∃ r, F64.nearestToReal y r ∧ F64.lastPlaceApart r w

/-- The reference series settles the rounding of `cos`, or the argument is a zero. -/
def Trig.cosSettled (x : NumWord) : Bool :=
  decide (F64.mag x = 0) || (Trig.inFixedPoint x && Trig.settled (Trig.cosSeries x))

/-- The reference series settles the rounding of `sin`, or the argument is a zero. -/
def Trig.sinSettled (x : NumWord) : Bool :=
  decide (F64.mag x = 0) || (Trig.inFixedPoint x && Trig.settled (Trig.sinSeries x))

theorem Trig.cos_nearNearest {x : NumWord} (h : Trig.cosSettled x = true) :
    F64.nearNearest (Real.cos ((F64.toRat x : ℚ) : ℝ)) (Trig.cos x) := by
  simp only [Trig.cosSettled, Bool.or_eq_true, Bool.and_eq_true, decide_eq_true_eq] at h
  obtain hzero | ⟨hfixed, hsettled⟩ := h
  · refine ⟨F64.one, ?_, Trig.cos_of_zero hzero ▸ F64.lastPlaceApart_refl _⟩
    have hone := F64.nearestToReal_self (r := F64.one) (by decide)
    rwa [F64.toRat_one, Rat.cast_one, ← Real.cos_zero, ← Rat.cast_zero, ← F64.toRat_of_zero hzero] at hone
  · obtain ⟨hnear, hone⟩ := Trig.toWord_nearest hsettled (Trig.abs_cosSeries_sub_le hfixed)
    rw [← Trig.cosRef_eq] at hnear hone
    exact ⟨Trig.cosRef x, hnear, Trig.lastPlaceApart_cos hone⟩

theorem Trig.sin_nearNearest {x : NumWord} (h : Trig.sinSettled x = true) :
    F64.nearNearest (Real.sin ((F64.toRat x : ℚ) : ℝ)) (Trig.sin x) := by
  by_cases hzero : F64.mag x = 0
  · refine ⟨x, ?_, (Trig.sin_of_zero hzero).symm ▸ F64.lastPlaceApart_refl x⟩
    have hself := F64.nearestToReal_self (F64.isZero_of_mag hzero).1
    rw [F64.toRat_of_zero hzero, Rat.cast_zero] at hself ⊢
    rwa [Real.sin_zero]
  · simp only [Trig.sinSettled, Bool.or_eq_true, Bool.and_eq_true, decide_eq_true_eq, hzero, false_or] at h
    obtain ⟨hfixed, hsettled⟩ := h
    obtain ⟨hnear, hone⟩ := Trig.toWord_nearest hsettled (Trig.abs_sinSeries_sub_le hfixed)
    rw [← Trig.sinRef_eq] at hnear hone
    refine ⟨Trig.sinRef x, hnear, ?_⟩
    rw [Trig.sin, if_neg hzero]
    exact Trig.lastPlaceApart_lastPlace _ hone

/-! The arguments of the window and of the ROM -/

/-- The angle of the tables with the words of 2 and π (42_window_table.md R131, 44_fft.md R164). -/
theorem Numeric.angle_num (k d : Nat) : Numeric.angle num k d =
    F64.div (F64.mul (F64.mul 0x4000000000000000 0x400921FB54442D18) (F64.ofInt k)) (F64.ofInt d) := by
  have htwo : F64.ofInt 2 = 0x4000000000000000 := by decide +kernel
  have hpi : F64.pi = 0x400921FB54442D18 := by decide +kernel
  rw [Numeric.angle, num_div, num_mul, num_ofInt, num_pi, htwo, hpi]

/-- `Numeric.angle`, evaluated with `quickRound`. -/
def Trig.quickAngle (k d : Nat) : NumWord :=
  F64.quickDiv (F64.quickMul 0x401921FB54442D18 (F64.quickRound false (k * F64.scale) 1))
    (F64.quickRound false (d * F64.scale) 1)

theorem Trig.quickAngle_eq (k d : Nat) : Trig.quickAngle k d = Numeric.angle num k d := by
  have htwoPi : F64.mul 0x4000000000000000 0x400921FB54442D18 = 0x401921FB54442D18 := by decide +kernel
  rw [Numeric.angle_num, htwoPi, Trig.quickAngle, F64.quickDiv_eq, F64.quickMul_eq, F64.quickRound_eq,
    F64.quickRound_eq]
  rfl

theorem cosSettled_window (p : Config.FrameLen) :
    ∀ n, n < p.len → Trig.cosSettled (Trig.quickAngle n (p.len - 1)) = true := by
  cases p with
  | n128 => decide +kernel
  | n256 => decide +kernel

theorem cosSettled_rom (p : Config.FrameLen) :
    ∀ k, k < p.half → Trig.cosSettled (Trig.quickAngle k p.len) = true := by
  cases p with
  | n128 => decide +kernel
  | n256 => decide +kernel

theorem sinSettled_rom (p : Config.FrameLen) :
    ∀ k, k < p.half → Trig.sinSettled (Trig.quickAngle k p.len) = true := by
  cases p with
  | n128 => decide +kernel
  | n256 => decide +kernel

/-! The range -/

/-- A number of magnitude up to 1 lies between −1 and 1. -/
theorem F64.boundedBy.within_one {x : NumWord} (h : F64.boundedBy 0 x) :
    F64.within (F64.neg F64.one) F64.one x := by
  obtain ⟨hf, hmag⟩ := F64.boundedBy_zero_iff.1 h
  rw [← F64.natAbs_val] at hmag
  refine ⟨hf, ?_, ?_⟩
  · rw [F64.val_neg, F64.val_one]
    omega
  · rw [F64.val_one]
    omega

end Sys2Proof.Machine

namespace Sys2Proof

open Machine

theorem Config.FrameLen.intCast_len_sub_one (p : Config.FrameLen) : ((p.len - 1 : Nat) : Int) = p.len - 1 := by
  cases p <;> rfl

/-- Settles O22: a fixed-point series within 48 units of the real value rounds to the word nearest to it, and
the free last place moves that word by at most one place within `[−1, 1]`. -/
theorem trigContract : Obligations.TrigContract := by
  refine ⟨fun x => ⟨(Trig.boundedBy_cos x).within_one, fun _ => (Trig.boundedBy_sin x).within_one⟩,
    fun x hx => ⟨Trig.cos_of_zero hx.2, (Trig.sin_of_zero hx.2).symm ▸ hx⟩, Trig.cos_two_pi,
    F64.nearestToReal_pi, ?window, ?rom⟩
  case window =>
    rintro p n x hn rfl
    rw [← p.intCast_len_sub_one, ← Numeric.angle_num, ← Trig.quickAngle_eq]
    exact Trig.cos_nearNearest (cosSettled_window p n hn)
  case rom =>
    rintro p k x hk rfl
    rw [← Numeric.angle_num, ← Trig.quickAngle_eq]
    exact ⟨Trig.cos_nearNearest (cosSettled_rom p k hk), Trig.sin_nearNearest (sinSettled_rom p k hk)⟩

end Sys2Proof
end

section
/-! PROOF. The window table: WININIT's formula word by word and its range in binary64, and the window over
the reals as a squared sine, with its two sums (42_window_table.md R130 to R132, R135). -/

namespace Sys2Proof.Machine

/-! The coefficient in binary64 -/

/-- The coefficient with the words of 0.5 and 1 (42_window_table.md R131). -/
theorem hannCoeff_num (len n : Nat) : hannCoeff num len n =
    F64.mul 0x3FE0000000000000 (F64.sub 0x3FF0000000000000 (Trig.cos (Numeric.angle num n (len - 1)))) := by
  have hhalf : F64.ofRatio 1 2 = 0x3FE0000000000000 := by decide +kernel
  rw [hannCoeff, Numeric.half, Numeric.one_num, F64.one, num_mul, num_sub, num_cos, num_ofRatio, hhalf]

/-- Where the library's `cos` is 1 the coefficient is exactly 0 (42_window_table.md R132 (b)). -/
theorem hannCoeff_num_eq_zero {len n : Nat} (h : Trig.cos (Numeric.angle num n (len - 1)) = F64.one) :
    hannCoeff num len n = F64.zero := by
  rw [hannCoeff_num, h]
  decide +kernel

theorem Numeric.angle_first (p : Config.FrameLen) : F64.mag (Numeric.angle num 0 (p.len - 1)) = 0 := by
  cases p with
  | n128 => decide +kernel
  | n256 => decide +kernel

/-- The last angle is the word of 2π. -/
theorem Numeric.angle_last (p : Config.FrameLen) :
    Numeric.angle num (p.len - 1) (p.len - 1) = 0x401921FB54442D18 := by
  cases p with
  | n128 => decide +kernel
  | n256 => decide +kernel

theorem getElem?_hannTable {α : Type} (A : Config.Arith α) {len n : Nat} (hn : n < len) :
    (hannTable A len)[n]? = some (hannCoeff A len n) := by
  simp [hannTable, hn]

end Sys2Proof.Machine

namespace Sys2Proof

open Machine

/-- Settles O18: the table's entries are the coefficients, written with their words. -/
theorem wininitFillsTable : Obligations.WininitFillsTable := by
  refine fun s => ⟨_, exec_wininit s, rfl, length_hannTable _ _, fun n hn => ?_, rfl⟩
  rw [getElem?_hannTable num hn, hannCoeff_num, Numeric.angle_num, State.len,
    s.params.frame.intCast_len_sub_one]

/-- Settles O19: `cos` is in `[−1, 1]`, and exactly 1 at the two end points. -/
theorem windowInBinary64 : Obligations.WindowInBinary64 := by
  refine fun p => ⟨fun n _ => hannCoeff_within p.len n, hannCoeff_num_eq_zero ?first,
    hannCoeff_num_eq_zero ?last⟩
  case first => exact Trig.cos_of_zero (Numeric.angle_first p)
  case last => rw [Numeric.angle_last, Trig.cos_two_pi]

/-! The window over the reals -/

/-- Half the angle of coefficient `n` of a window with divisor `m`. -/
noncomputable def hannAngle (m n : Nat) : ℝ := Real.pi * n / m

/-- The half-angle form of a coefficient (42_window_table.md R131). -/
theorem hannCoeff_real (len n : Nat) :
    hannCoeff realArith len n = Real.sin (hannAngle (len - 1) n) ^ 2 := by
  have hangle : Numeric.angle realArith n (len - 1) = 2 * hannAngle (len - 1) n := by
    simp only [Numeric.angle, realArith, hannAngle]
    push_cast
    ring
  have hcoeff : hannCoeff realArith len n = 1 / 2 * (1 - Real.cos (Numeric.angle realArith n (len - 1))) := by
    simp [hannCoeff, Numeric.half, Numeric.one, realArith]
  rw [hcoeff, hangle, Real.sin_sq_eq_half_sub]
  ring

theorem hannAngle_zero (m : Nat) : hannAngle m 0 = 0 := by
  simp [hannAngle]

section
variable {m : Nat} (hm : 0 < m)
include hm

theorem hannAngle_self : hannAngle m m = Real.pi :=
  mul_div_cancel_right₀ _ (Nat.cast_ne_zero.2 hm.ne')

/-- Mirrored indices have supplementary angles. -/
theorem hannAngle_sub {n : Nat} (hn : n ≤ m) : hannAngle m (m - n) = Real.pi - hannAngle m n := by
  have hm' : (m : ℝ) ≠ 0 := Nat.cast_ne_zero.2 hm.ne'
  rw [hannAngle, hannAngle, Nat.cast_sub hn]
  field_simp

theorem hannAngle_strictMono : StrictMono (hannAngle m) := fun a b hab => by
  have hm' : (0 : ℝ) < m := Nat.cast_pos.2 hm
  have hab' : (a : ℝ) < b := Nat.cast_lt.2 hab
  exact div_lt_div_of_pos_right (mul_lt_mul_of_pos_left hab' Real.pi_pos) hm'

theorem hannAngle_nonneg (n : Nat) : 0 ≤ hannAngle m n := by
  have := Real.pi_pos
  unfold hannAngle
  positivity

/-- Below the middle the angle is below π/2. -/
theorem hannAngle_lt_half_pi {n : Nat} (hn : 2 * n < m) : hannAngle m n < Real.pi / 2 := by
  have hlt := hannAngle_strictMono hm (show n < m - n by omega)
  rw [hannAngle_sub hm (by omega)] at hlt
  linarith

/-- The window rises up to its middle (42_window_table.md R132). -/
theorem hann_lt_of_lt {a b : Nat} (hab : a < b) (hb : 2 * b < m) :
    Real.sin (hannAngle m a) ^ 2 < Real.sin (hannAngle m b) ^ 2 := by
  have ha0 := hannAngle_nonneg hm a
  have hlt := hannAngle_strictMono hm hab
  have hb2 := hannAngle_lt_half_pi hm hb
  have hpi := Real.pi_pos
  have hsin : Real.sin (hannAngle m a) < Real.sin (hannAngle m b) :=
    Real.sin_lt_sin_of_lt_of_le_pi_div_two (by linarith) hb2.le hlt
  exact pow_lt_pow_left₀ hsin (Real.sin_nonneg_of_nonneg_of_le_pi ha0 (by linarith)) two_ne_zero

theorem hann_lt_one {n : Nat} (hn : 2 * n < m) : Real.sin (hannAngle m n) ^ 2 < 1 := by
  have h0 := hannAngle_nonneg hm n
  have h2 := hannAngle_lt_half_pi hm hn
  have hcos : 0 < Real.cos (hannAngle m n) := Real.cos_pos_of_mem_Ioo ⟨by linarith [Real.pi_pos], h2⟩
  rw [Real.sin_sq]
  linarith [pow_pos hcos 2]

/-- The window is symmetric (42_window_table.md R132). -/
theorem hann_symm {n : Nat} (hn : n ≤ m) :
    Real.sin (hannAngle m (m - n)) ^ 2 = Real.sin (hannAngle m n) ^ 2 := by
  rw [hannAngle_sub hm hn, Real.sin_pi_sub]

/-- No coefficient is above the two middle ones (42_window_table.md R132). -/
theorem hann_le_middle {h n : Nat} (hodd : m = 2 * h + 1) (hn : n ≤ m) :
    Real.sin (hannAngle m n) ^ 2 ≤ Real.sin (hannAngle m h) ^ 2 := by
  have hle : ∀ k, k ≤ h → Real.sin (hannAngle m k) ^ 2 ≤ Real.sin (hannAngle m h) ^ 2 := fun k hk => by
    obtain rfl | hlt := Nat.eq_or_lt_of_le hk
    · exact le_rfl
    · exact (hann_lt_of_lt hm hlt (by omega)).le
  obtain hlow | hhigh := le_or_gt n h
  · exact hle n hlow
  · rw [← hann_symm hm hn]
    exact hle _ (by omega)

end

/-! The sums -/

/-- The cosines of `j` full turns cut into `m` parts cancel. -/
theorem sum_cos_hannAngle {m j : Nat} (h0 : 0 < j) (hj : j < m) :
    ∑ n ∈ Finset.range m, Real.cos (2 * j * hannAngle m n) = 0 := by
  have hm : 0 < m := h0.trans hj
  have hm' : (m : ℝ) ≠ 0 := Nat.cast_ne_zero.2 hm.ne'
  have hpos : 0 < hannAngle m j := hannAngle_zero m ▸ hannAngle_strictMono hm h0
  have hlt : hannAngle m j < Real.pi := hannAngle_self hm ▸ hannAngle_strictMono hm hj
  have hsum := Real.sin_mul_sum_cos m (2 * hannAngle m j) 0
  have hturns : (m : ℝ) * (2 * hannAngle m j) / 2 = j * Real.pi := by
    rw [hannAngle]
    field_simp
  rw [mul_div_cancel_left₀ _ (two_ne_zero' ℝ), hturns, Real.sin_nat_mul_pi, zero_mul] at hsum
  rw [← (mul_eq_zero.1 hsum).resolve_left (Real.sin_pos_of_pos_of_lt_pi hpos hlt).ne']
  refine Finset.sum_congr rfl fun n _ => congrArg Real.cos ?_
  simp only [hannAngle]
  ring

theorem sin_sq_hannAngle (m n : Nat) :
    Real.sin (hannAngle m n) ^ 2 = 1 / 2 - 1 / 2 * Real.cos (2 * (1 : Nat) * hannAngle m n) := by
  rw [Real.sin_sq_eq_half_sub, Nat.cast_one, mul_one]
  ring

theorem sin_pow_four_hannAngle (m n : Nat) : (Real.sin (hannAngle m n) ^ 2) ^ 2 =
    3 / 8 - 1 / 2 * Real.cos (2 * (1 : Nat) * hannAngle m n) +
      1 / 8 * Real.cos (2 * (2 : Nat) * hannAngle m n) := by
  have hdouble : Real.cos (2 * (2 : Nat) * hannAngle m n) =
      2 * Real.cos (2 * (1 : Nat) * hannAngle m n) ^ 2 - 1 := by
    rw [← Real.cos_two_mul]
    push_cast
    ring_nf
  rw [sin_sq_hannAngle, hdouble]
  ring

/-- The sum of the window (42_window_table.md R135); the last coefficient is 0. -/
theorem sum_hann {m : Nat} (hm : 1 < m) :
    ∑ n ∈ Finset.range (m + 1), Real.sin (hannAngle m n) ^ 2 = (m : ℝ) / 2 := by
  rw [Finset.sum_range_succ, hannAngle_self (by omega), Real.sin_pi]
  simp only [sin_sq_hannAngle, Finset.sum_sub_distrib, ← Finset.mul_sum,
    sum_cos_hannAngle one_pos hm, Finset.sum_const, Finset.card_range, nsmul_eq_mul]
  ring

/-- The sum of the squares of the window (42_window_table.md R135). -/
theorem sum_hann_sq {m : Nat} (hm : 2 < m) :
    ∑ n ∈ Finset.range (m + 1), (Real.sin (hannAngle m n) ^ 2) ^ 2 = 3 * (m : ℝ) / 8 := by
  rw [Finset.sum_range_succ, hannAngle_self (by omega), Real.sin_pi]
  simp only [sin_pow_four_hannAngle, Finset.sum_sub_distrib, Finset.sum_add_distrib, ← Finset.mul_sum,
    sum_cos_hannAngle one_pos (show 1 < m by omega), sum_cos_hannAngle two_pos hm, Finset.sum_const,
    Finset.card_range, nsmul_eq_mul]
  ring

/-! The two frame lengths -/

theorem Config.FrameLen.four_lt_len (p : Config.FrameLen) : 4 < p.len := by
  cases p <;> decide

theorem Config.FrameLen.len_sub_one_odd (p : Config.FrameLen) : p.len - 1 = 2 * (p.len / 2 - 1) + 1 := by
  cases p <;> rfl

theorem Config.FrameLen.realCast_len_sub_one (p : Config.FrameLen) : ((p.len - 1 : Nat) : ℝ) = p.len - 1 := by
  have := p.four_lt_len
  rw [Nat.cast_sub (by omega), Nat.cast_one]

/-- Settles O20: every coefficient is the squared sine of an angle that rises from 0 to π, below π/2 up to
index `N/2 − 1` and mirrored above it. -/
theorem hannWindowReal : Obligations.HannWindowReal := by
  intro p
  have hlen := p.len_sub_one_odd
  have hbig := p.four_lt_len
  simp only [hannCoeff_real]
  obtain ⟨m, hm⟩ : ∃ m, p.len - 1 = m := ⟨_, rfl⟩
  obtain ⟨h, hh⟩ : ∃ h, p.len / 2 - 1 = h := ⟨_, rfl⟩
  have hmid : p.len / 2 = m - h := by omega
  rw [hm, hh, hmid]
  rw [hm, hh] at hlen
  have hpos : 0 < m := by omega
  have hmiddle : ∀ n, n < p.len → Real.sin (hannAngle m n) ^ 2 ≤ Real.sin (hannAngle m h) ^ 2 :=
    fun n hn => hann_le_middle hpos hlen (by omega)
  have hbelow : Real.sin (hannAngle m h) ^ 2 < 1 := hann_lt_one hpos (by omega)
  refine ⟨fun n hn => ⟨?angle, sq_nonneg _, (hmiddle n hn).trans_lt hbelow,
    (hann_symm hpos (by omega)).symm, hmiddle n hn⟩, ?first, ?last, (hann_symm hpos (by omega)).symm,
    fun a b hab hb => hann_lt_of_lt hpos hab (by omega)⟩
  case angle => rw [hannAngle, ← hm, p.realCast_len_sub_one]
  case first => simp [hannAngle_zero]
  case last => simp [hannAngle_self hpos]

/-- Settles O21: the cosines in the power-reduced coefficients cancel over the `N − 1` parts of a turn. -/
theorem hannSumsReal : Obligations.HannSumsReal := by
  intro p
  have hbig := p.four_lt_len
  have hlen : p.len = p.len - 1 + 1 := by omega
  simp only [hannCoeff_real, ← p.realCast_len_sub_one]
  constructor
  · conv_lhs => rw [hlen]
    exact sum_hann (by omega)
  · conv_lhs => rw [hlen]
    exact sum_hann_sq (by omega)

end Sys2Proof
end

section
/-! PROOF. The spin-wait ends with its deadline reached, across the clock's wrap, and SAMPLE stores one windowed
conversion and one zero per trip round its loop (43_sampler.md R140 to R147, R150). -/

namespace Sys2Proof.Machine

/-! The deadline (43_sampler.md R142, R147) -/

theorem toNat_sampleDeadline (t0 : BitVec 32) (i : Nat) :
    (sampleDeadline t0 i).toNat = (t0.toNat + i * 104) % 2 ^ 32 := by
  have hperiod : Config.samplePeriodUs = 104 := by decide
  rw [sampleDeadline, hperiod, BitVec.toNat_add, BitVec.toNat_ofNat, Nat.add_mod_mod]

theorem sampleDeadline_zero (t0 : BitVec 32) : sampleDeadline t0 0 = t0 := by
  simp [sampleDeadline]

/-- The sign of the 32-bit difference is its top bit, so a deadline is reached for half the circle. -/
theorem deadlineReached_iff (now d : BitVec 32) : deadlineReached now d = true ↔ (now - d).toNat < 2 ^ 31 := by
  rw [deadlineReached, sdiff32, decide_eq_true_iff, BitVec.toInt_eq_toNat_cond]
  split <;> omega

/-- One read of the clock never falls behind a deadline at the clock's last value (60_exceptions.md R270). -/
theorem deadlineReached_read (c : UsClock) : deadlineReached c.read.now c.now = true := by
  have hadvance : c.read.now - c.now = (c.feed.value Config.usAdvance).setWidth 32 :=
    add_sub_cancel_left _ _
  rw [deadlineReached_iff, hadvance, BitVec.toNat_setWidth_of_le (by decide)]
  exact BitVec.isLt _

/-! The spin-wait, by its first poll (43_sampler.md R142) -/

theorem UsClock.waitUntil_of_reached {d : BitVec 32} {c : UsClock} (h : deadlineReached c.read.now d = true) :
    c.waitUntil d = c.read := by
  rw [UsClock.waitUntil, if_pos h, if_pos h]

theorem UsClock.waitUntil_now_of_not_reached {d : BitVec 32} {c : UsClock}
    (h : deadlineReached c.read.now d = false) :
    (c.waitUntil d).now = landing d (c.read.feed.value Config.usAdvance) := by
  simp [UsClock.waitUntil, h]

theorem UsClock.waitUntil_reached (d : BitVec 32) (c : UsClock) : deadlineReached (c.waitUntil d).now d = true := by
  cases h : deadlineReached c.read.now d with
  | true => rwa [UsClock.waitUntil_of_reached h]
  | false =>
    rw [UsClock.waitUntil_now_of_not_reached h]
    exact landing_reached _ _

/-! Words stored one after the other -/

/-- The list `a` with its first `k` words replaced by `f 0, …, f (k − 1)`. -/
def withPrefix (f : Nat → NumWord) (a : List NumWord) (k : Nat) : List NumWord :=
  (List.range k).map f ++ a.drop k

theorem withPrefix_zero (f : Nat → NumWord) (a : List NumWord) : withPrefix f a 0 = a := by
  simp [withPrefix]

theorem withPrefix_length (f : Nat → NumWord) (a : List NumWord) :
    withPrefix f a a.length = (List.range a.length).map f := by
  simp [withPrefix]

theorem set_withPrefix (f : Nat → NumWord) {a : List NumWord} {k : Nat} (hk : k < a.length) :
    (withPrefix f a k).set k (f k) = withPrefix f a (k + 1) := by
  have hset : (a.drop k).set 0 (f k) = f k :: a.drop (k + 1) := by
    rw [List.drop_eq_getElem_cons hk, List.set_cons_zero]
  rw [withPrefix, List.set_append_right _ _ (by simp), List.length_map, List.length_range, Nat.sub_self, hset]
  simp [withPrefix, List.range_succ]

/-! The sampler's loop, by its last trip (43_sampler.md R140, R143 to R145) -/

theorem sampleLoop_succ (k : Nat) (s : State) : s.sampleLoop (k + 1) = (s.sampleLoop k).sampleOne := by
  induction k generalizing s with
  | zero => rfl
  | succ k ih => exact ih s.sampleOne

theorem sampleLoop_adc (k : Nat) (s : State) : (s.sampleLoop k).env.adc = s.env.adc.after k := by
  obtain ⟨-, -, -, -, -, -, -, -, -, -, -, -, -, hadc⟩ := sampleLoop_frame k s
  exact hadc

theorem sampleLoop_hann (k : Nat) (s : State) : (s.sampleLoop k).hann = s.hann := by
  obtain ⟨-, hhann, -⟩ := sampleLoop_frame k s
  exact hhann

theorem sampleLoop_conversionResult (k : Nat) (s : State) :
    (s.sampleLoop k).conversionResult = s.adcAnswer k := by
  rw [State.conversionResult, sampleLoop_adc, Feed.value_after, State.adcAnswer]

theorem sampleLoop_succ_adc (k : Nat) (s : State) :
    (s.sampleLoop (k + 1)).raw = s.adcAnswer k ∧ (s.sampleLoop (k + 1)).adcch = 0 ∧
      (s.sampleLoop (k + 1)).inFlight = none := by
  rw [sampleLoop_succ]
  exact ⟨sampleLoop_conversionResult k s, rfl, rfl⟩

/-- The word SAMPLE stores for sample `i` (43_sampler.md R144). -/
def State.sampleWord (s : State) (i : Nat) : NumWord :=
  windowedSample num (s.adcAnswer i) (wordAt num s.hann i)

theorem State.sampleWord_eq (s : State) (i : Nat) : s.sampleWord i =
    F64.mul (F64.ofInt (((s.adcAnswer i).toNat : Int) - 512)) (s.hann.getD i F64.zero) := by
  rw [State.sampleWord, windowedSample, wordAt, centered, Config.adcBias, Numeric.zero_num, num_mul, num_ofInt]

section
variable {s : State} (hi : s.i = 0)
include hi

theorem sampleLoop_index {k : Nat} (hk : k < 512) : (s.sampleLoop k).i.toNat = k := by
  induction k with
  | zero => simp [State.sampleLoop, hi]
  | succ k ih =>
    have hindex := ih (by omega)
    rw [sampleLoop_succ, State.sampleOne, State.sampleStore_i, State.sampleWait_i]
    bv_omega

theorem sampleLoop_vReal {k : Nat} (hlen : k ≤ s.vReal.length) (hk : k < 512) :
    (s.sampleLoop k).vReal = withPrefix s.sampleWord s.vReal k := by
  induction k with
  | zero => exact (withPrefix_zero _ _).symm
  | succ k ih =>
    have hword : windowedSample num (s.sampleLoop k).sampleWait.conversionResult
        (wordAt num (s.sampleLoop k).hann k) = s.sampleWord k := by
      rw [sampleLoop_hann, State.sampleWord, ← sampleLoop_conversionResult]
      rfl
    rw [sampleLoop_succ, State.sampleOne, State.sampleStore_vReal, State.sampleWait_vReal, State.sampleWait_hann,
      State.sampleWait_i, sampleLoop_index hi (by omega), hword, ih (by omega) (by omega), set_withPrefix _ hlen]

theorem sampleLoop_vImag {k : Nat} (hlen : k ≤ s.vImag.length) (hk : k < 512) :
    (s.sampleLoop k).vImag = withPrefix (fun _ => F64.zero) s.vImag k := by
  induction k with
  | zero => exact (withPrefix_zero _ _).symm
  | succ k ih =>
    rw [sampleLoop_succ, State.sampleOne, State.sampleStore_vImag, State.sampleWait_vImag, State.sampleWait_i,
      sampleLoop_index hi (by omega), Numeric.zero_num, ih (by omega) (by omega), set_withPrefix _ hlen]

end

/-! SAMPLE (43_sampler.md R140) -/

theorem len_pos (s : State) : 0 < s.len := by
  rw [State.len]
  have := s.params.frame.four_lt_len
  omega

/-- The index `I` has 9 bits, and no frame fills them. -/
theorem len_lt (s : State) : s.len < 512 :=
  (len_le s).trans_lt (by decide)

theorem State.sampleSized_iff (s : State) : s.sampleSized = true ↔
    s.hann.length = s.len ∧ s.vReal.length = s.len ∧ s.vImag.length = s.len := by
  simp only [State.sampleSized, Bool.and_eq_true, decide_eq_true_iff, and_assoc]

/-- What SAMPLE answers: its loop's state, and outside what the loop writes the state before it with `T0` and
`STAGE` written. -/
theorem exec_sample_next_withSamplesOf {s : State} (h : s.sampleSized = true) : exec .sample s =
    .next ({ s with t0 := s.env.us.read.now, stage := 4 }.withSamplesOf (s.sampleStart.sampleLoop s.len)) := by
  have hrun := exec_sample s h
  exact hrun.trans (congrArg _ (exec_sample_withSamplesOf hrun))

theorem exec_sample_refused {s : State} (h : s.sampleSized = false) : exec .sample s = .refused .arraySize := by
  change execSample s = _
  simp [execSample, h]

section
variable {s : State} (h : s.sampleSized = true)
include h

theorem sampleStart_loop_vReal :
    (s.sampleStart.sampleLoop s.len).vReal = (List.range s.len).map s.sampleWord := by
  obtain ⟨-, hreal, -⟩ := s.sampleSized_iff.1 h
  rw [sampleLoop_vReal s.sampleStart_i hreal.ge (len_lt s), ← hreal]
  exact withPrefix_length _ _

theorem sampleStart_loop_vImag : (s.sampleStart.sampleLoop s.len).vImag = List.replicate s.len F64.zero := by
  obtain ⟨-, -, himag⟩ := s.sampleSized_iff.1 h
  rw [sampleLoop_vImag s.sampleStart_i himag.ge (len_lt s), ← himag]
  exact (withPrefix_length _ _).trans (by simp)

end

theorem sampleStart_loop_clock (s : State) : (s.sampleStart.sampleLoop s.len).env.us =
    (List.range s.len).foldl (fun c i => c.waitUntil (sampleDeadline s.env.us.read.now i)) s.env.us.read := by
  rw [sampleLoop_clock _ _ (by simpa using len_lt s), s.sampleStart_i, List.range_eq_range']
  rfl

theorem sampleStart_loop_adc (s : State) :
    (s.sampleStart.sampleLoop s.len).raw = s.adcAnswer (s.len - 1) ∧
      (s.sampleStart.sampleLoop s.len).adcch = 0 ∧ (s.sampleStart.sampleLoop s.len).inFlight = none := by
  have h := sampleLoop_succ_adc (s.len - 1) s.sampleStart
  rwa [Nat.sub_add_cancel (len_pos s)] at h

end Sys2Proof.Machine

namespace Sys2Proof

open Machine

/-- Settles O23: after `k` trips round the loop the first `k` words of the two buffers are the windowed answers
and zeros; what else the loop writes is named by `withSamplesOf`. -/
theorem sampleAcquiresFrame : Obligations.SampleAcquiresFrame := by
  refine ⟨fun s hsized => ?_, fun s => exec_sample_refused⟩
  have hvReal := sampleStart_loop_vReal hsized
  have hseen := sampleLoop_conversions s.len s.sampleStart
  have hadc := sampleLoop_adc s.len s.sampleStart
  obtain ⟨hraw, hchannel, hidle⟩ := sampleStart_loop_adc s
  refine ⟨_, exec_sample_next_withSamplesOf hsized, ?lengths, ?words, sampleStart_loop_vImag hsized, rfl,
    sampleLoop_index s.sampleStart_i (len_lt s), hraw, hchannel, hidle, rfl, ?seen, ?env,
    sampleStart_loop_clock s, rfl⟩
  case lengths => simp [State.withSamplesOf, hvReal, -State.len_eq]
  case words =>
    intro i hi
    simp only [State.withSamplesOf, hvReal, ← State.sampleWord_eq]
    simp [hi, -State.len_eq]
  case seen => simp [State.withSamplesOf, hseen, -State.len_eq]
  case env => simp [State.withSamplesOf, hadc, -State.len_eq]

/-- Settles O24, by the first poll: it finds the deadline reached, or the last poll lands past the deadline by
less than half the circle. -/
theorem spinWaitMeetsDeadline : Obligations.SpinWaitMeetsDeadline := by
  refine ⟨toNat_sampleDeadline, deadlineReached_iff, UsClock.waitUntil_reached,
    fun _ _ => UsClock.waitUntil_of_reached, fun d c h => ?_⟩
  rw [UsClock.waitUntil_now_of_not_reached h]
  exact landing_past _ _

/-- Settles O25: the deadline of sample 0 is `T0`, the clock's last value. -/
theorem firstSampleWithoutWait : Obligations.FirstSampleWithoutWait := by
  intro s
  have hreached := deadlineReached_read s.env.us.read
  rw [← sampleDeadline_zero s.env.us.read.now] at hreached
  exact UsClock.waitUntil_of_reached hreached

end Sys2Proof
end

section
/-! PROOF. The FFT in any arithmetic: its swap loop permutes the frame by bit reversal, a butterfly writes two
words from their old values, and what every butterfly keeps the stages keep (44_fft.md R163, R165 to R167). -/

namespace Sys2Proof.Machine

section
variable {α : Type} (A : Config.Arith α)

/-! Bit reversal of an index (00_scope.md R11) -/

theorem Numeric.testBit_bitrev (L : Nat) : ∀ i j, j < L →
    (Numeric.bitrev L i).testBit j = i.testBit (L - 1 - j) := by
  induction L with
  | zero => intro i j hj; omega
  | succ k ih =>
    intro i j hj
    rw [Numeric.bitrev, mul_comm, Nat.testBit_two_pow_mul_add _ (Numeric.bitrev_lt k _)]
    split
    · rw [ih _ _ ‹_›, Nat.testBit_div_two]
      congr 1
      omega
    · obtain rfl : j = k := by omega
      have hlast : j + 1 - 1 - j = 0 := by omega
      rw [Nat.sub_self, hlast, Nat.testBit_zero, Nat.testBit_zero, Nat.mod_mod]

theorem Numeric.bitrev_two_mul (L i : Nat) : Numeric.bitrev (L + 1) (2 * i) = Numeric.bitrev L i := by
  rw [Numeric.bitrev, Nat.mul_mod_right, Nat.mul_div_cancel_left _ two_pos, zero_mul, zero_add]

theorem Numeric.bitrev_two_mul_add_one (L i : Nat) :
    Numeric.bitrev (L + 1) (2 * i + 1) = 2 ^ L + Numeric.bitrev L i := by
  have hmod : (2 * i + 1) % 2 = 1 := by omega
  have hdiv : (2 * i + 1) / 2 = i := by omega
  rw [Numeric.bitrev, hmod, hdiv, one_mul]

theorem Numeric.bitrev_bitrev {L i : Nat} (hi : i < 2 ^ L) :
    Numeric.bitrev L (Numeric.bitrev L i) = i := by
  refine Nat.eq_of_testBit_eq fun j => ?_
  obtain hj | hj := lt_or_ge j L
  · rw [testBit_bitrev L _ j hj, testBit_bitrev L i _ (by omega)]
    congr 1
    omega
  · have hpow : 2 ^ L ≤ 2 ^ j := Nat.pow_le_pow_right two_pos hj
    rw [Nat.testBit_lt_two_pow ((Numeric.bitrev_lt L _).trans_le hpow), Nat.testBit_lt_two_pow (hi.trans_le hpow)]

/-! The swap loop (44_fft.md R163) -/

theorem wordAt_of_getElem? {a : List α} {i : Nat} {x : α} (h : a[i]? = some x) : wordAt A a i = x := by
  rw [wordAt, List.getD_eq_getElem?_getD, h, Option.getD_some]

theorem getElem?_set_of_getElem? {a : List α} {i : Nat} {x : α} (h : a[i]? = some x) (v : α) :
    (a.set i v)[i]? = some v := by
  rw [List.getElem?_set_self', h]
  rfl

@[simp] theorem length_swapWords (a : List α) (i r : Nat) : (swapWords A a i r).length = a.length := by
  simp [swapWords]

theorem getElem?_swapWords {a : List α} {i r : Nat} (hi : i < a.length) (hr : r < a.length) (j : Nat) :
    (swapWords A a i r)[j]? = a[Equiv.swap i r j]? := by
  rw [swapWords, wordAt_of_getElem? A (List.getElem?_eq_getElem hi),
    wordAt_of_getElem? A (List.getElem?_eq_getElem hr)]
  obtain rfl | hjr := eq_or_ne j r
  · rw [Equiv.swap_apply_right, List.getElem?_set_self (by rwa [List.length_set]), List.getElem?_eq_getElem hi]
  rw [List.getElem?_set_ne hjr.symm]
  obtain rfl | hji := eq_or_ne j i
  · rw [Equiv.swap_apply_left, List.getElem?_set_self hi, List.getElem?_eq_getElem hr]
  · rw [Equiv.swap_apply_of_ne_of_ne hji hjr, List.getElem?_set_ne hji.symm]

/-- One iteration of the swap loop on one buffer. -/
def swapReversed (L : Nat) (a : List α) (i : Nat) : List α :=
  if i < Numeric.bitrev L i then swapWords A a i (Numeric.bitrev L i) else a

theorem reverseStep_eq (L : Nat) (f : Complexes α) (i : Nat) :
    reverseStep A L f i = ⟨swapReversed A L f.re i, swapReversed A L f.im i⟩ := by
  unfold reverseStep swapReversed
  split <;> rfl

/-- The swap loop treats the two buffers alike. -/
theorem bitReverse_eq (L : Nat) (f : Complexes α) : bitReverse A L f =
    ⟨(List.range (2 ^ L)).foldl (swapReversed A L) f.re, (List.range (2 ^ L)).foldl (swapReversed A L) f.im⟩ := by
  have hre := List.foldl_hom (l := List.range (2 ^ L)) (init := f) Complexes.re
    (g₁ := reverseStep A L) (g₂ := swapReversed A L) fun g i => by rw [reverseStep_eq]
  have him := List.foldl_hom (l := List.range (2 ^ L)) (init := f) Complexes.im
    (g₁ := reverseStep A L) (g₂ := swapReversed A L) fun g i => by rw [reverseStep_eq]
  rw [hre, him]
  rfl

/-- The buffer `b` in the middle of the swap loop over `a`: the pairs with an index below `k` are swapped. -/
structure SwappedBelow (L k : Nat) (a b : List α) : Prop where
  length : b.length = 2 ^ L
  word : ∀ j, j < 2 ^ L →
    b[j]? = if j < k ∨ Numeric.bitrev L j < k then a[Numeric.bitrev L j]? else a[j]?

variable {A} in
theorem SwappedBelow.swapReversed {L k : Nat} {a b : List α} (h : SwappedBelow L k a b) (hk : k < 2 ^ L) :
    SwappedBelow L (k + 1) a (swapReversed A L b k) := by
  have hrev := Numeric.bitrev_lt L k
  have hrevrev := Numeric.bitrev_bitrev hk
  unfold Machine.swapReversed
  split
  · rename_i hlt
    refine ⟨(length_swapWords A _ _ _).trans h.length, fun j hj => ?_⟩
    rw [getElem?_swapWords A (by rwa [h.length]) (by rwa [h.length])]
    obtain rfl | hjk := eq_or_ne j k
    · rw [Equiv.swap_apply_left, h.word _ hrev, if_neg (by omega), if_pos (by omega)]
    obtain rfl | hjr := eq_or_ne j (Numeric.bitrev L k)
    · rw [Equiv.swap_apply_right, h.word _ hk, if_neg (by omega), if_pos (by omega), hrevrev]
    -- a word of another pair
    have hne : Numeric.bitrev L j ≠ k := fun he => hjr (by rw [← he, Numeric.bitrev_bitrev hj])
    have hiff : (j < k ∨ Numeric.bitrev L j < k) ↔ (j < k + 1 ∨ Numeric.bitrev L j < k + 1) := by omega
    rw [Equiv.swap_apply_of_ne_of_ne hjk hjr, h.word j hj, if_congr hiff rfl rfl]
  · refine ⟨h.length, fun j hj => ?_⟩
    rw [h.word j hj]
    by_cases hself : Numeric.bitrev L j = j
    · rw [hself, ite_self, ite_self]
    -- where `k` has another index for its reversal, the pair is swapped already
    have hfst : j = k → Numeric.bitrev L j = Numeric.bitrev L k := congrArg _
    have hsnd : Numeric.bitrev L j = k → j = Numeric.bitrev L k := fun he => by
      rw [← he, Numeric.bitrev_bitrev hj]
    have hiff : (j < k ∨ Numeric.bitrev L j < k) ↔ (j < k + 1 ∨ Numeric.bitrev L j < k + 1) := by omega
    rw [if_congr hiff rfl rfl]

/-- After the loop word `i` is the old word at the reversal of `i`. -/
theorem getElem?_swapReversed_loop {L : Nat} {a : List α} (ha : a.length = 2 ^ L) {i : Nat} (hi : i < 2 ^ L) :
    ((List.range (2 ^ L)).foldl (swapReversed A L) a)[i]? = a[Numeric.bitrev L i]? := by
  have hloop : SwappedBelow L (2 ^ L) a ((List.range (2 ^ L)).foldl (swapReversed A L) a) :=
    foldl_range_induction (P := fun k b => SwappedBelow L k a b) _
      ⟨ha, fun j _ => by rw [if_neg (by omega)]⟩ fun _ _ hk h => h.swapReversed hk
  rw [hloop.word i hi, if_pos (Or.inl hi)]

/-! A butterfly (44_fft.md R165) -/

section
variable {A} (wr wi : α) {a b : Nat} {f : Complexes α} {ar ai br bi : α}

/-- A butterfly's word `a`. -/
theorem getElem?_butterfly_fst (har : f.re[a]? = some ar) (hai : f.im[a]? = some ai)
    (hbr : f.re[b]? = some br) (hbi : f.im[b]? = some bi) (hab : a ≠ b) :
    (butterfly A wr wi a b f).re[a]? = some (A.add ar (twistRe A wr wi br bi)) ∧
      (butterfly A wr wi a b f).im[a]? = some (A.add ai (twistIm A wr wi br bi)) := by
  simp only [butterfly, wordAt_of_getElem? A har, wordAt_of_getElem? A hai, wordAt_of_getElem? A hbr,
    wordAt_of_getElem? A hbi]
  exact ⟨getElem?_set_of_getElem? ((List.getElem?_set_ne hab.symm).trans har) _,
    getElem?_set_of_getElem? ((List.getElem?_set_ne hab.symm).trans hai) _⟩

/-- A butterfly's word `b`. -/
theorem getElem?_butterfly_snd (har : f.re[a]? = some ar) (hai : f.im[a]? = some ai)
    (hbr : f.re[b]? = some br) (hbi : f.im[b]? = some bi) (hab : a ≠ b) :
    (butterfly A wr wi a b f).re[b]? = some (A.sub ar (twistRe A wr wi br bi)) ∧
      (butterfly A wr wi a b f).im[b]? = some (A.sub ai (twistIm A wr wi br bi)) := by
  simp only [butterfly, wordAt_of_getElem? A har, wordAt_of_getElem? A hai, wordAt_of_getElem? A hbr,
    wordAt_of_getElem? A hbi, List.getElem?_set_ne hab]
  exact ⟨getElem?_set_of_getElem? hbr _, getElem?_set_of_getElem? hbi _⟩

/-- A butterfly leaves every other word. -/
theorem getElem?_butterfly_of_ne {k : Nat} (hka : k ≠ a) (hkb : k ≠ b) :
    (butterfly A wr wi a b f).re[k]? = f.re[k]? ∧ (butterfly A wr wi a b f).im[k]? = f.im[k]? := by
  simp only [butterfly, List.getElem?_set_ne hka.symm, List.getElem?_set_ne hkb.symm, and_self]

end

/-- The magnitudes, word by word (44_fft.md R166). -/
theorem getElem?_magnitudes {A : Config.Arith α} {f : Complexes α} {b : Nat} {re im : α}
    (hre : f.re[b]? = some re) (him : f.im[b]? = some im) :
    (magnitudes A f).re[b]? = some (magnitude A re im) := by
  rw [magnitudes, List.getElem?_zipWith, hre, him]

/-! The loops -/

section
variable {A} {P : Complexes α → Prop} {f : Complexes α} {L : Nat}

/-- What every swap keeps the permutation keeps. -/
theorem bitReverse_induction (hstep : ∀ i g, P g → P (reverseStep A L g i)) (h : P f) : P (bitReverse A L f) :=
  foldl_range_induction (P := fun _ g => P g) _ h fun i g _ => hstep i g

/-- What every butterfly with a twiddle of the ROM keeps the stages keep. -/
theorem fftStages_induction {tw : Twiddles α}
    (hstep : ∀ k a b g, P g → P (butterfly A (wordAt A tw.re k) (wordAt A tw.im k) a b g)) (h : P f) :
    P (fftStages A L tw f) :=
  foldl_range_induction (P := fun _ g => P g) _ h fun _ _ _ hstage =>
    foldl_range_induction (P := fun _ g => P g) _ hstage fun _ _ _ hblock =>
      foldl_range_induction (P := fun _ g => P g) _ hblock fun _ g _ => hstep _ _ _ g

end

/-- Both buffers have `n` words. -/
structure Complexes.Sized (n : Nat) (f : Complexes α) : Prop where
  re_length : f.re.length = n
  im_length : f.im.length = n

section
variable {A} {n : Nat} {f : Complexes α}

theorem Complexes.Sized.reverseStep (h : f.Sized n) (L i : Nat) : (reverseStep A L f i).Sized n := by
  unfold Machine.reverseStep
  split
  · exact ⟨(length_swapWords A _ _ _).trans h.re_length, (length_swapWords A _ _ _).trans h.im_length⟩
  · exact h

theorem Complexes.Sized.butterfly (h : f.Sized n) (wr wi : α) (a b : Nat) :
    (butterfly A wr wi a b f).Sized n where
  re_length := by simp only [Machine.butterfly, List.length_set, h.re_length]
  im_length := by simp only [Machine.butterfly, List.length_set, h.im_length]

/-- The butterflies of a transform keep the lengths of its buffers. -/
theorem Complexes.Sized.fftStages (h : f.Sized n) (L : Nat) (tw : Twiddles α) :
    (fftStages A L tw (bitReverse A L f)).Sized n :=
  fftStages_induction (fun _ _ _ _ hg => hg.butterfly _ _ _ _)
    (bitReverse_induction (fun i _ hg => hg.reverseStep L i) h)

/-- The magnitudes of buffers of `n` words, with the words read as FFT reads them. -/
theorem Complexes.Sized.getElem?_magnitudes (h : f.Sized n) (d : α) {b : Nat} (hb : b < n) :
    (magnitudes A f).re[b]? = some (magnitude A (f.re.getD b d) (f.im.getD b d)) := by
  have hre : b < f.re.length := by rwa [h.re_length]
  have him : b < f.im.length := by rwa [h.im_length]
  rw [List.getD_eq_getElem _ _ hre, List.getD_eq_getElem _ _ him]
  exact Machine.getElem?_magnitudes (List.getElem?_eq_getElem hre) (List.getElem?_eq_getElem him)

end

end

/-! FFT in the machine (44_fft.md R160) -/

theorem State.frame_sized {s : State} (h : s.fftSized = true) :
    Complexes.Sized s.len ⟨s.vReal, s.vImag⟩ := by
  simp only [State.fftSized, Bool.and_eq_true, decide_eq_true_iff, and_assoc] at h
  exact ⟨h.1, h.2.1⟩

theorem exec_fft_refused {s : State} (h : s.fftSized = false) : exec .fft s = .refused .arraySize := by
  change execFft s = _
  simp [execFft, h]

/-! Silence (44_fft.md R171) -/

theorem F64.isZero_mul {a b : NumWord} (ha : F64.isFinite a = true) (hb : F64.isZero b) :
    F64.isZero (F64.mul a b) := by
  have h := F64.isRounding_mul ha hb.1
  rw [F64.val_of_mag_zero hb.2, mul_zero] at h
  exact h.isZero

theorem F64.isZero_add {a b : NumWord} (ha : F64.isZero a) (hb : F64.isZero b) : F64.isZero (F64.add a b) := by
  have h := F64.isRounding_add ha.1 hb.1
  rw [F64.val_of_mag_zero ha.2, F64.val_of_mag_zero hb.2, add_zero] at h
  exact h.isZero

theorem F64.isZero_sub {a b : NumWord} (ha : F64.isZero a) (hb : F64.isZero b) : F64.isZero (F64.sub a b) := by
  have h := F64.isRounding_sub ha.1 hb.1
  rw [F64.val_of_mag_zero ha.2, F64.val_of_mag_zero hb.2, sub_zero] at h
  exact h.isZero

/-- The square of a zero of either sign is +0. -/
theorem F64.mul_self_of_isZero {x : NumWord} (h : F64.isZero x) : F64.mul x x = F64.zero := by
  rw [F64.mul_finite h.1 h.1, h.2, bne_self_eq_false, F64.round, zero_mul, F64.roundMag_zero]
  rfl

theorem magnitude_of_isZero {re im : NumWord} (hre : F64.isZero re) (him : F64.isZero im) :
    magnitude num re im = F64.zero := by
  rw [magnitude, num_mul, num_add, num_sqrt, F64.mul_self_of_isZero hre, F64.mul_self_of_isZero him]
  decide +kernel

/-- Every word of both buffers is a zero. -/
structure Complexes.Silent (f : Complexes NumWord) : Prop where
  re_zero : ∀ x ∈ f.re, F64.isZero x
  im_zero : ∀ x ∈ f.im, F64.isZero x

/-- What holds of every word of an array holds after writing two words of which it holds. -/
theorem forall_mem_set_set {P : NumWord → Prop} {a : List NumWord} {v w : NumWord} (ha : ∀ x ∈ a, P x) (hv : P v)
    (hw : P w) (i j : Nat) : ∀ x ∈ (a.set i v).set j w, P x := by
  intro x hx
  obtain hx | rfl := List.mem_or_eq_of_mem_set hx
  · obtain hx | rfl := List.mem_or_eq_of_mem_set hx
    · exact ha x hx
    · exact hv
  · exact hw

section
variable {f : Complexes NumWord} (h : f.Silent)
include h

theorem Complexes.Silent.isZero_wordAt (i : Nat) :
    F64.isZero (wordAt num f.re i) ∧ F64.isZero (wordAt num f.im i) :=
  ⟨wordAt_of_forall h.re_zero F64.isZero_zero i, wordAt_of_forall h.im_zero F64.isZero_zero i⟩

theorem Complexes.Silent.reverseStep (L i : Nat) : (reverseStep num L f i).Silent := by
  unfold Machine.reverseStep
  split
  · exact
      { re_zero := forall_mem_set_set h.re_zero (h.isZero_wordAt _).1 (h.isZero_wordAt _).1 _ _
        im_zero := forall_mem_set_set h.im_zero (h.isZero_wordAt _).2 (h.isZero_wordAt _).2 _ _ }
  · exact h

/-- Every product of a butterfly has a zero factor (44_fft.md R171). -/
theorem Complexes.Silent.butterfly {wr wi : NumWord} (hwr : F64.isFinite wr = true)
    (hwi : F64.isFinite wi = true) (a b : Nat) : (butterfly num wr wi a b f).Silent := by
  obtain ⟨har, hai⟩ := h.isZero_wordAt a
  obtain ⟨hbr, hbi⟩ := h.isZero_wordAt b
  have htr : F64.isZero (twistRe num wr wi (wordAt num f.re b) (wordAt num f.im b)) :=
    F64.isZero_sub (F64.isZero_mul hwr hbr) (F64.isZero_mul hwi hbi)
  have hti : F64.isZero (twistIm num wr wi (wordAt num f.re b) (wordAt num f.im b)) :=
    F64.isZero_add (F64.isZero_mul hwr hbi) (F64.isZero_mul hwi hbr)
  exact
    { re_zero := forall_mem_set_set h.re_zero (F64.isZero_sub har htr) (F64.isZero_add har htr) _ _
      im_zero := forall_mem_set_set h.im_zero (F64.isZero_sub hai hti) (F64.isZero_add hai hti) _ _ }

theorem Complexes.Silent.fftStages {tw : Twiddles NumWord} (htwRe : ∀ x ∈ tw.re, F64.isFinite x = true)
    (htwIm : ∀ x ∈ tw.im, F64.isFinite x = true) (L : Nat) :
    (fftStages num L tw (bitReverse num L f)).Silent :=
  fftStages_induction
    (fun k _ _ _ hg => hg.butterfly (wordAt_of_forall htwRe F64.isZero_zero.1 k)
      (wordAt_of_forall htwIm F64.isZero_zero.1 k) _ _)
    (bitReverse_induction (fun i _ hg => hg.reverseStep L i) h)

theorem Complexes.Silent.magnitudes {x : NumWord} (hx : x ∈ (magnitudes num f).re) : x = F64.zero := by
  obtain ⟨i, hi, rfl⟩ := List.getElem_of_mem hx
  simp only [Machine.magnitudes, List.getElem_zipWith]
  exact magnitude_of_isZero (h.re_zero _ (List.getElem_mem _)) (h.im_zero _ (List.getElem_mem _))

end

end Sys2Proof.Machine

namespace Sys2Proof

open Machine

/-- Settles O29: a butterfly's words in any arithmetic, read in binary64. -/
theorem butterflyUpdatesTwoWords : Obligations.ButterflyUpdatesTwoWords := by
  intro wr wi a b f ar ai br bi hab har hai hbr hbi
  obtain ⟨hreA, himA⟩ := getElem?_butterfly_fst (A := num) wr wi har hai hbr hbi hab
  obtain ⟨hreB, himB⟩ := getElem?_butterfly_snd (A := num) wr wi har hai hbr hbi hab
  exact ⟨hreA, hreB, himA, himB, fun k hka hkb => getElem?_butterfly_of_ne wr wi hka hkb⟩

/-- Settles O28: the loop swaps each pair of reversed indices once, at the smaller of the two. -/
theorem bitReversalPermutes : Obligations.BitReversalPermutes := by
  intro α A L f hre him i hi
  rw [bitReverse_eq]
  exact ⟨getElem?_swapReversed_loop A hre hi, getElem?_swapReversed_loop A him hi, Numeric.bitrev_lt L i,
    Numeric.testBit_bitrev L i, Numeric.bitrev_bitrev hi⟩

/-- Settles O27: the butterflies keep the buffers' lengths, and the magnitudes are taken word by word. -/
theorem fftReplacesFrame : Obligations.FftReplacesFrame := by
  refine ⟨fun s h => ?_, fun s => exec_fft_refused⟩
  have hf := (State.frame_sized h).fftStages (A := num) s.params.frame.log2 ⟨s.twRe, s.twIm⟩
  refine ⟨_, _, exec_fft s h, rfl, hf.re_length, hf.im_length, rfl, ?length,
    fun b hb => hf.getElem?_magnitudes F64.zero hb, rfl, rfl⟩
  case length =>
    change (magnitudes num _).re.length = _
    rw [magnitudes, List.length_zipWith, hf.re_length, hf.im_length, min_self]

/-- Settles O30: zeros go through every butterfly, and the root of the sum of two squared zeros is +0. -/
theorem silentFrameTransformsToZero : Obligations.SilentFrameTransformsToZero := by
  intro s h hre him htwRe htwIm
  have hf := (Complexes.Silent.mk (f := ⟨s.vReal, s.vImag⟩) hre him).fftStages (tw := ⟨s.twRe, s.twIm⟩)
    htwRe htwIm s.params.frame.log2
  exact ⟨_, exec_fft s h, fun x => hf.magnitudes, hf.im_zero⟩

end Sys2Proof
end

section
/-! PROOF. Over the reals the stages compute the discrete Fourier transform: after stage `s` the blocks of `2^s`
words hold the transforms of the decimated frames, and two blocks combine by the radix-2 identity
(44_fft.md R160, R161, R164, R165, R169). -/

namespace Sys2Proof.Machine

/-! Loops whose trips touch different cells -/

/-- Where only trip `i` of a loop touches the cells `C`, the loop does to them what trip `i` does from a state
that agrees on them with the state before the loop. -/
theorem foldl_range_at {σ ι β : Type} {f : σ → Nat → σ} {view : σ → ι → β} {C : Set ι} {n i : Nat} (a : σ)
    (hi : i < n) (hframe : ∀ j b, j < n → j ≠ i → ∀ c ∈ C, view (f b j) c = view b c) :
    ∃ b, (∀ c ∈ C, view b c = view a c) ∧
      ∀ c ∈ C, view ((List.range n).foldl f a) c = view (f b i) c := by
  induction n with
  | zero => omega
  | succ n ih =>
    simp only [List.range_succ, List.foldl_append, List.foldl_cons, List.foldl_nil]
    obtain rfl | hne := eq_or_ne i n
    · refine ⟨(List.range i).foldl f a, ?_, fun _ _ => rfl⟩
      exact foldl_range_induction (P := fun _ b => ∀ c ∈ C, view b c = view a c) i (fun _ _ => rfl)
        fun j b hj hb c hc => (hframe j b (by omega) hj.ne c hc).trans (hb c hc)
    · obtain ⟨b, hb, hlast⟩ := ih (by omega) fun j b hj => hframe j b (by omega)
      exact ⟨b, hb, fun c hc => (hframe n _ n.lt_succ_self hne.symm c hc).trans (hlast c hc)⟩

/-! Words of the two buffers as complex numbers -/

/-- Word `i` of both buffers as one complex number. -/
noncomputable def Complexes.point? (f : Complexes ℝ) (i : Nat) : Option ℂ :=
  f.re[i]?.bind fun x => f.im[i]?.map fun y => ⟨x, y⟩

theorem Complexes.point?_eq_some {f : Complexes ℝ} {i : Nat} {z : ℂ} :
    f.point? i = some z ↔ f.re[i]? = some z.re ∧ f.im[i]? = some z.im := by
  simp only [Complexes.point?, Option.bind_eq_some_iff, Option.map_eq_some_iff]
  constructor
  · rintro ⟨x, hx, y, hy, rfl⟩
    exact ⟨hx, hy⟩
  · rintro ⟨hx, hy⟩
    exact ⟨_, hx, _, hy, rfl⟩

/-- The product of a butterfly is that of the complex numbers (44_fft.md R165). -/
theorem twist_real (w z : ℂ) : twistRe realArith w.re w.im z.re z.im = (w * z).re ∧
    twistIm realArith w.re w.im z.re z.im = (w * z).im := by
  rw [Complex.mul_re, Complex.mul_im]
  exact ⟨rfl, rfl⟩

section
variable {f : Complexes ℝ} {a b : Nat} {u v : ℂ} (w : ℂ)

/-- A butterfly over the reals writes the sum and the difference. -/
theorem point?_butterfly (hab : a ≠ b) (hu : f.point? a = some u) (hv : f.point? b = some v) :
    (butterfly realArith w.re w.im a b f).point? a = some (u + w * v) ∧
      (butterfly realArith w.re w.im a b f).point? b = some (u - w * v) := by
  rw [Complexes.point?_eq_some] at hu hv
  have hfst := getElem?_butterfly_fst (A := realArith) w.re w.im hu.1 hu.2 hv.1 hv.2 hab
  have hsnd := getElem?_butterfly_snd (A := realArith) w.re w.im hu.1 hu.2 hv.1 hv.2 hab
  rw [(twist_real w v).1, (twist_real w v).2] at hfst hsnd
  rw [Complexes.point?_eq_some, Complexes.point?_eq_some]
  exact ⟨hfst, hsnd⟩

theorem point?_butterfly_of_ne (wr wi : ℝ) {k : Nat} (hka : k ≠ a) (hkb : k ≠ b) :
    (butterfly realArith wr wi a b f).point? k = f.point? k := by
  obtain ⟨hre, him⟩ := getElem?_butterfly_of_ne (A := realArith) (f := f) wr wi hka hkb
  rw [Complexes.point?, hre, him, Complexes.point?]

end

/-! The twiddle factors (44_fft.md R164) -/

/-- `e^{−j·2π / N}`. -/
noncomputable def forwardRoot (N : Nat) : ℂ := Complex.exp (-(2 * Real.pi * Complex.I) / N)

theorem forwardRoot_pow (N k : Nat) :
    forwardRoot N ^ k = Complex.exp ((-Numeric.angle realArith k N : ℝ) * Complex.I) := by
  rw [forwardRoot, ← Complex.exp_nat_mul]
  simp only [Numeric.angle, realArith]
  push_cast
  ring_nf

/-- Half a turn. -/
theorem forwardRoot_pow_half {N h : Nat} (hN : N = 2 * h) (hh : 0 < h) : forwardRoot N ^ h = -1 := by
  have hh' : (h : ℂ) ≠ 0 := Nat.cast_ne_zero.2 hh.ne'
  have harg : (h : ℂ) * (-(2 * Real.pi * Complex.I) / N) = -(Real.pi * Complex.I) := by
    rw [hN]
    push_cast
    field_simp
  rw [forwardRoot, ← Complex.exp_nat_mul, harg, Complex.exp_neg, Complex.exp_pi_mul_I]
  norm_num

/-- The ROM of a transform of `N` words over the reals. -/
noncomputable def realRom (N : Nat) : Twiddles ℝ := ⟨twiddleRe realArith N, twiddleIm realArith N⟩

/-- The ROM holds the powers of the root. -/
theorem wordAt_realRom {N k : Nat} (hk : k < N / 2) :
    wordAt realArith (realRom N).re k = (forwardRoot N ^ k).re ∧
      wordAt realArith (realRom N).im k = (forwardRoot N ^ k).im := by
  rw [forwardRoot_pow, Complex.exp_ofReal_mul_I_re, Complex.exp_ofReal_mul_I_im, Real.cos_neg, Real.sin_neg]
  constructor
  · exact wordAt_of_getElem? _ (by simp only [realRom, twiddleRe, List.getElem?_map, List.getElem?_range hk]; rfl)
  · exact wordAt_of_getElem? _ (by simp only [realRom, twiddleIm, List.getElem?_map, List.getElem?_range hk]; rfl)

/-! A block of a stage (44_fft.md R165) -/

section
variable {L s : Nat} {f : Complexes ℝ} {tw : Twiddles ℝ}

/-- A block leaves the words outside it. -/
theorem point?_fftBlock_of_outside {start c : Nat} (hc : c < start ∨ start + 2 ^ (s + 1) ≤ c) :
    (fftBlock realArith L tw (s + 1) start f).point? c = f.point? c := by
  rw [pow_succ] at hc
  refine foldl_range_induction (P := fun _ (g : Complexes ℝ) => g.point? c = f.point? c) _ rfl
    fun j g hj hg => ?_
  rw [Nat.add_sub_cancel] at hj ⊢
  rw [point?_butterfly_of_ne _ _ (by omega) (by omega), hg]

/-- Words `j` and `j + 2^s` of a block are written by its butterfly `j` alone. -/
theorem point?_fftBlock {start j : Nat} {u v : ℂ} (hs : s < L) (hj : j < 2 ^ s)
    (hu : f.point? (start + j) = some u) (hv : f.point? (start + j + 2 ^ s) = some v) :
    (fftBlock realArith L (realRom (2 ^ L)) (s + 1) start f).point? (start + j) =
        some (u + forwardRoot (2 ^ L) ^ (j * 2 ^ (L - (s + 1))) * v) ∧
      (fftBlock realArith L (realRom (2 ^ L)) (s + 1) start f).point? (start + j + 2 ^ s) =
        some (u - forwardRoot (2 ^ L) ^ (j * 2 ^ (L - (s + 1))) * v) := by
  have hstride : j * 2 ^ (L - (s + 1)) < 2 ^ L / 2 :=
    calc j * 2 ^ (L - (s + 1)) < 2 ^ s * 2 ^ (L - (s + 1)) := Nat.mul_lt_mul_of_pos_right hj (by positivity)
      _ = 2 ^ (L - 1) := by rw [← pow_add]; congr 1; omega
      _ = 2 ^ L / 2 := by
        refine (Nat.div_eq_of_eq_mul_left two_pos ?_).symm
        rw [← pow_succ, Nat.sub_add_cancel (by omega)]
  obtain ⟨hre, him⟩ := wordAt_realRom hstride
  obtain ⟨g, hg, hlast⟩ := foldl_range_at (view := Complexes.point?) (C := {start + j, start + j + 2 ^ s})
    (f := fun g j => butterfly realArith (wordAt realArith (realRom (2 ^ L)).re (j * 2 ^ (L - (s + 1))))
      (wordAt realArith (realRom (2 ^ L)).im (j * 2 ^ (L - (s + 1)))) (start + j) (start + j + 2 ^ s) g) f hj
    fun i g hi hne c hc => by
      obtain rfl | rfl := hc
      · exact point?_butterfly_of_ne _ _ (by omega) (by omega)
      · exact point?_butterfly_of_ne _ _ (by omega) (by omega)
  rw [fftBlock, Nat.add_sub_cancel, hlast _ (.inl rfl), hlast _ (.inr rfl), hre, him]
  refine point?_butterfly _ ?_ ((hg _ (.inl rfl)).trans hu) ((hg _ (.inr rfl)).trans hv)
  have := Nat.two_pow_pos s
  omega

/-- A stage combines the two halves of each of its blocks (44_fft.md R165). -/
theorem point?_fftStage {q j : Nat} {u v : ℂ} (hs : s < L) (hq : q < 2 ^ (L - (s + 1))) (hj : j < 2 ^ s)
    (hu : f.point? (q * 2 ^ (s + 1) + j) = some u) (hv : f.point? (q * 2 ^ (s + 1) + j + 2 ^ s) = some v) :
    (fftStage realArith L (realRom (2 ^ L)) f (s + 1)).point? (q * 2 ^ (s + 1) + j) =
        some (u + forwardRoot (2 ^ L) ^ (j * 2 ^ (L - (s + 1))) * v) ∧
      (fftStage realArith L (realRom (2 ^ L)) f (s + 1)).point? (q * 2 ^ (s + 1) + j + 2 ^ s) =
        some (u - forwardRoot (2 ^ L) ^ (j * 2 ^ (L - (s + 1))) * v) := by
  have hm : 2 ^ (s + 1) = 2 ^ s + 2 ^ s := by rw [pow_succ, mul_two]
  obtain ⟨g, hg, hlast⟩ := foldl_range_at (view := Complexes.point?)
    (C := {c | q * 2 ^ (s + 1) ≤ c ∧ c < q * 2 ^ (s + 1) + 2 ^ (s + 1)})
    (f := fun g q => fftBlock realArith L (realRom (2 ^ L)) (s + 1) (q * 2 ^ (s + 1)) g) f hq
    fun p g hp hne c ⟨hlo, hhi⟩ => by
      refine point?_fftBlock_of_outside ?_
      rcases Nat.lt_or_gt_of_ne hne with hlt | hgt
      · have := Nat.mul_le_mul_right (2 ^ (s + 1)) hlt
        rw [Nat.succ_mul] at this
        exact .inr (by omega)
      · have := Nat.mul_le_mul_right (2 ^ (s + 1)) hgt
        rw [Nat.succ_mul] at this
        exact .inl (by omega)
  rw [fftStage, hlast _ ⟨by omega, by omega⟩, hlast _ ⟨by omega, by omega⟩]
  exact point?_fftBlock hs hj ((hg _ ⟨by omega, by omega⟩).trans hu) ((hg _ ⟨by omega, by omega⟩).trans hv)

end

/-! The radix-2 identity (44_fft.md R169) -/

theorem sum_range_two_mul (g : Nat → ℂ) (M : Nat) : ∑ n ∈ Finset.range (2 * M), g n =
    ∑ n ∈ Finset.range M, g (2 * n) + ∑ n ∈ Finset.range M, g (2 * n + 1) := by
  induction M with
  | zero => simp
  | succ M ih =>
    rw [Nat.mul_succ, Finset.sum_range_succ, Finset.sum_range_succ, ih, Finset.sum_range_succ, Finset.sum_range_succ]
    ring

/-- The transform at `r` of the `M` samples `c, c + d, c + 2d, …` of a frame of `N`. -/
noncomputable def decimatedDft (N : Nat) (x : List ℝ) (M d c r : Nat) : ℂ :=
  ∑ n ∈ Finset.range M, (x.getD (n * d + c) 0 : ℂ) * forwardRoot N ^ (n * d * r)

section
variable (N : Nat) (x : List ℝ) (M d c r : Nat)

/-- The samples of even and of odd place. -/
theorem decimatedDft_two_mul : decimatedDft N x (2 * M) d c r =
    decimatedDft N x M (2 * d) c r + forwardRoot N ^ (r * d) * decimatedDft N x M (2 * d) (d + c) r := by
  rw [decimatedDft, sum_range_two_mul, decimatedDft, decimatedDft, Finset.mul_sum]
  congr 1
  · refine Finset.sum_congr rfl fun n _ => ?_
    rw [show 2 * n * d = n * (2 * d) by ring]
  · refine Finset.sum_congr rfl fun n _ => ?_
    rw [show (2 * n + 1) * d + c = n * (2 * d) + (d + c) by ring,
      show (2 * n + 1) * d * r = r * d + n * (2 * d) * r by ring, pow_add]
    ring

/-- A transform of `M` samples repeats after `M` words. -/
theorem decimatedDft_add_self {N d : Nat} (hroot : forwardRoot N ^ (M * d) = 1) :
    decimatedDft N x M d c (r + M) = decimatedDft N x M d c r := by
  refine Finset.sum_congr rfl fun n _ => ?_
  rw [show n * d * (r + M) = n * d * r + M * d * n by ring, pow_add, pow_mul _ (M * d), hroot, one_pow, mul_one]

/-- Half a block on, the second twiddle has the other sign. -/
theorem decimatedDft_two_mul_add {N M d : Nat} (hroot : forwardRoot N ^ (M * d) = -1) :
    decimatedDft N x (2 * M) d c (r + M) =
      decimatedDft N x M (2 * d) c r - forwardRoot N ^ (r * d) * decimatedDft N x M (2 * d) (d + c) r := by
  have hturn : forwardRoot N ^ (M * (2 * d)) = 1 := by
    rw [show M * (2 * d) = M * d * 2 by ring, pow_mul, hroot]
    norm_num
  rw [decimatedDft_two_mul, decimatedDft_add_self _ _ _ _ hturn, decimatedDft_add_self _ _ _ _ hturn, add_mul,
    pow_add, hroot]
  ring

end

/-! The stages -/

/-- After stage `s` block `q` of `2^s` words holds the transform of the samples that bit reversal has brought
there, which lie `2^(L − s)` apart in the frame. -/
def Complexes.Transformed (L s : Nat) (x : List ℝ) (f : Complexes ℝ) : Prop :=
  ∀ q r, q < 2 ^ (L - s) → r < 2 ^ s →
    f.point? (q * 2 ^ s + r) =
      some (decimatedDft (2 ^ L) x (2 ^ s) (2 ^ (L - s)) (Numeric.bitrev (L - s) q) r)

section
variable {L : Nat} {x : List ℝ}

/-- Bit reversal puts one sample into each block of one word. -/
theorem Complexes.transformed_bitReverse (hx : x.length = 2 ^ L) :
    (bitReverse realArith L ⟨x, List.replicate (2 ^ L) 0⟩).Transformed L 0 x := by
  intro q r hq hr
  obtain rfl : r = 0 := by omega
  rw [Nat.sub_zero] at hq
  have hrev := Numeric.bitrev_lt L q
  rw [bitReverse_eq, Complexes.point?_eq_some, pow_zero, mul_one, add_zero, Nat.sub_zero,
    getElem?_swapReversed_loop _ hx hq, getElem?_swapReversed_loop _ (List.length_replicate ..) hq,
    List.getElem?_replicate_of_lt hrev, List.getElem?_eq_getElem (hx ▸ hrev)]
  simp [decimatedDft, hx, hrev]

/-- A stage makes the transforms of twice as many samples (44_fft.md R169). -/
theorem Complexes.Transformed.fftStage {s : Nat} {f : Complexes ℝ} (h : f.Transformed L s x) (hs : s < L) :
    (fftStage realArith L (realRom (2 ^ L)) f (s + 1)).Transformed L (s + 1) x := by
  obtain ⟨d, hd⟩ : ∃ d, L - (s + 1) = d := ⟨_, rfl⟩
  have hLs : L - s = d + 1 := by omega
  have hroot : forwardRoot (2 ^ L) ^ (2 ^ s * 2 ^ d) = -1 := by
    refine forwardRoot_pow_half ?_ (by positivity)
    rw [← pow_add, ← pow_succ']
    congr 1
    omega
  intro q r hq hr
  rw [hd] at hq ⊢
  have hpow : 2 ^ (d + 1) = 2 * 2 ^ d := pow_succ' 2 d
  -- words `j` and `j + 2^s` of block `q` come from words `j` of the blocks `2q` and `2q + 1` before
  have hwords : ∀ j, j < 2 ^ s →
      (Machine.fftStage realArith L (realRom (2 ^ L)) f (s + 1)).point? (q * 2 ^ (s + 1) + j) =
          some (decimatedDft (2 ^ L) x (2 ^ (s + 1)) (2 ^ d) (Numeric.bitrev d q) j) ∧
        (Machine.fftStage realArith L (realRom (2 ^ L)) f (s + 1)).point? (q * 2 ^ (s + 1) + j + 2 ^ s) =
          some (decimatedDft (2 ^ L) x (2 ^ (s + 1)) (2 ^ d) (Numeric.bitrev d q) (j + 2 ^ s)) := fun j hj => by
    have hu := h (2 * q) j (by rw [hLs]; omega) hj
    have hv := h (2 * q + 1) j (by rw [hLs]; omega) hj
    rw [hLs, Numeric.bitrev_two_mul, hpow, show 2 * q * 2 ^ s + j = q * 2 ^ (s + 1) + j by ring] at hu
    rw [hLs, Numeric.bitrev_two_mul_add_one, hpow,
      show (2 * q + 1) * 2 ^ s + j = q * 2 ^ (s + 1) + j + 2 ^ s by ring] at hv
    have hstage := point?_fftStage hs (hd ▸ hq) hj hu hv
    rwa [hd, ← decimatedDft_two_mul, ← decimatedDft_two_mul_add x _ _ hroot, ← pow_succ'] at hstage
  obtain hlow | hhigh := lt_or_ge r (2 ^ s)
  · exact (hwords r hlow).1
  · have hsecond := (hwords (r - 2 ^ s) (by rw [pow_succ] at hr; omega)).2
    rwa [add_assoc, Nat.sub_add_cancel hhigh] at hsecond

/-- The stages leave the transform of the whole frame. -/
theorem Complexes.Transformed.fftStages {f : Complexes ℝ} (h : f.Transformed L 0 x) :
    (fftStages realArith L (realRom (2 ^ L)) f).Transformed L L x :=
  foldl_range_induction (P := fun s (g : Complexes ℝ) => g.Transformed L s x) L h
    fun _ _ hs hg => hg.fftStage hs

theorem decimatedDft_whole (N : Nat) (x : List ℝ) (b : Nat) : decimatedDft N x N 1 0 b = dft N x b := by
  refine Finset.sum_congr rfl fun n _ => ?_
  rw [mul_one, add_zero, forwardRoot, ← Complex.exp_nat_mul]
  push_cast
  ring_nf

theorem magnitude_real (z : ℂ) : magnitude realArith z.re z.im = ‖z‖ := by
  rw [Complex.norm_def, Complex.normSq_apply]
  rfl

/-- For every `L` the three steps over the reals compute the magnitudes of the transform (44_fft.md R160, R169). -/
theorem fft_real (hx : x.length = 2 ^ L) {b : Nat} (hb : b < 2 ^ L) :
    (fft realArith L (realRom (2 ^ L)) ⟨x, List.replicate (2 ^ L) 0⟩).re[b]? = some ‖dft (2 ^ L) x b‖ := by
  have hword := (Complexes.transformed_bitReverse hx).fftStages 0 b (by simp) hb
  rw [zero_mul, zero_add, Nat.sub_self, pow_zero, Numeric.bitrev, decimatedDft_whole,
    Complexes.point?_eq_some] at hword
  rw [fft, getElem?_magnitudes hword.1 hword.2, magnitude_real]

end

end Sys2Proof.Machine

namespace Sys2Proof

open Machine

theorem Config.FrameLen.len_eq_two_pow (p : Config.FrameLen) : p.len = 2 ^ p.log2 := by
  cases p <;> rfl

/-- Settles O26: the Cooley–Tukey identity, stage by stage, at the two frame lengths. -/
theorem fftComputesDft : Obligations.FftComputesDft := by
  intro p x hx b hb
  rw [p.len_eq_two_pow] at hx hb ⊢
  exact fft_real hx hb

end Sys2Proof
end

section
/-! PROOF. BANDSEL takes its two readings in order, and from readings of 10 bits the exact floors lie in the range
of the band, so that neither the clamp nor the width of the registers changes them (45_band_selector.md R180 to
R186). -/

namespace Sys2Proof.Machine

/-! The exact floors -/

theorem Numeric.clampInt_of_mem {x lo hi : Int} (hlo : lo ≤ x) (hhi : x ≤ hi) : Numeric.clampInt x lo hi = x := by
  rw [Numeric.clampInt, if_neg (by omega), if_neg (by omega)]

/-- The width is at most the room above the lower edge (45_band_selector.md R182). -/
theorem bandWidth_le (nyq lo : Nat) {p2 : Nat} (hp : p2 < 1024) : bandWidth nyq lo p2 ≤ nyq - lo - 1 :=
  Nat.div_le_of_le_mul (Nat.mul_le_mul_right _ (by omega))

/-- "The clamp never changes it" (45_band_selector.md R182). -/
theorem bandHigh_eq {nyq lo p2 : Nat} (hlo : lo < nyq) (hp : p2 < 1024) :
    bandHigh nyq lo p2 = lo + 1 + bandWidth nyq lo p2 := by
  have hw := bandWidth_le nyq lo hp
  rw [bandHigh, Numeric.clampInt_of_mem (by omega) (by omega)]
  omega

/-! The corners (45_band_selector.md R186) -/

theorem bandLow_bottom (nyq : Nat) : bandLow nyq 0 = 1 := by
  rw [bandLow, Nat.zero_mul, Nat.zero_div]

theorem bandLow_top {nyq : Nat} (hnyq : 2 ≤ nyq) : bandLow nyq 1023 = nyq - 1 := by
  rw [bandLow, Nat.mul_div_cancel_left _ (by norm_num)]
  omega

/-- Below the top reading the floor loses at least one. -/
theorem bandLow_of_lt_top {nyq p1 : Nat} (hnyq : 3 ≤ nyq) (hp : p1 < 1023) : bandLow nyq p1 < nyq - 1 := by
  have hfloor : p1 * (nyq - 2) / 1023 < nyq - 2 :=
    Nat.div_lt_of_lt_mul (Nat.mul_lt_mul_of_pos_right hp (by omega))
  rw [bandLow]
  omega

theorem bandLow_eq_top_iff {nyq p1 : Nat} (hnyq : 3 ≤ nyq) (hp : p1 < 1024) :
    bandLow nyq p1 = nyq - 1 ↔ p1 = 1023 := by
  constructor
  · intro htop
    by_contra hne
    exact absurd htop (bandLow_of_lt_top hnyq (by omega)).ne
  · rintro rfl
    exact bandLow_top (by omega)

/-- One step below the top reading the floor loses exactly one. -/
theorem bandLow_below_top {nyq : Nat} (hnyq : 3 ≤ nyq) (hnyq' : nyq ≤ 1025) : bandLow nyq 1022 = nyq - 2 := by
  rw [bandLow]
  omega

theorem bandHigh_bottom {nyq lo : Nat} (hlo : lo < nyq) : bandHigh nyq lo 0 = lo + 1 := by
  rw [bandHigh_eq hlo (by norm_num), bandWidth, Nat.zero_mul, Nat.zero_div]

theorem bandHigh_top {nyq lo : Nat} (hlo : lo < nyq) : bandHigh nyq lo 1023 = nyq := by
  rw [bandHigh_eq hlo (by norm_num), bandWidth, Nat.mul_div_cancel_left _ (by norm_num)]
  omega

/-- From the highest lower edge the second reading changes nothing. -/
theorem bandHigh_of_highest {nyq p2 : Nat} (hnyq : 2 ≤ nyq) : bandHigh nyq (nyq - 1) p2 = nyq := by
  obtain ⟨habove, hnyq'⟩ := bandHigh_range (show nyq - 1 < nyq by omega) p2
  omega

/-! The frame lengths -/

theorem three_le_nyq (l : Config.FrameLen) : 3 ≤ l.nyq := by
  cases l <;> decide

/-- `NYQ = N/2 − 1` (00_scope.md R6). -/
theorem nyq_eq_half_len (l : Config.FrameLen) : l.nyq = l.len / 2 - 1 := by
  cases l <;> rfl

/-! The state after BANDSEL -/

/-- The second conversion takes the answer after the first one's (45_band_selector.md R180, D26). -/
theorem readPot1_conversionResult (s : State) : s.readPot1.conversionResult = s.adcAnswer 1 := by
  rw [State.conversionResult, State.readPot1_env, ← Feed.answer_zero, Feed.answer_rest, State.adcAnswer]

/-- Both edges fit their registers of 7 bits (45_band_selector.md R184). -/
theorem setBand_edges (s : State) :
    s.setBand.binLo.toNat = bandLow s.params.frame.nyq s.p1.toNat ∧
      s.setBand.binHi.toNat =
        bandHigh s.params.frame.nyq s.setBand.binLo.toNat s.p2.toNat := by
  obtain ⟨hnyq, hnyq'⟩ := nyq_range s.params.frame
  obtain ⟨-, hroom⟩ := bandLow_range hnyq s.p1.isLt
  have hlo : s.setBand.binLo.toNat = bandLow s.params.frame.nyq s.p1.toNat := by
    rw [State.setBand_binLo, BitVec.toNat_ofNat, Nat.mod_eq_of_lt (by omega)]
  obtain ⟨-, hhi⟩ := bandHigh_range hroom s.p2.toNat
  rw [hlo, State.setBand_binHi, BitVec.toNat_ofNat, Nat.mod_eq_of_lt (by omega)]
  exact ⟨rfl, rfl⟩

theorem setBand_room (s : State) : s.setBand.binLo.toNat < s.params.frame.nyq := by
  obtain ⟨-, horder, hhigh⟩ := setBand_range s
  exact horder.trans_le hhigh

/-- What BANDSEL leaves in `BINLO` and `BINHI`, from the environment's next two answers. -/
theorem exec_bandsel_edges (s : State) : ∃ t : State, exec .bandsel s = .next t ∧
    t.binLo.toNat < s.params.frame.nyq ∧
    t.binLo.toNat = bandLow s.params.frame.nyq (s.adcAnswer 0).toNat ∧
    t.binHi.toNat = bandHigh s.params.frame.nyq t.binLo.toNat (s.adcAnswer 1).toNat := by
  obtain ⟨hlo, hhi⟩ := setBand_edges s.readPot1.readPot2
  rw [State.readPot2_p2, readPot1_conversionResult] at hhi
  exact ⟨_, exec_bandsel s, setBand_room s.readPot1.readPot2, hlo, hhi⟩

/-- What BANDSEL does not write it leaves as it was (45_band_selector.md R180). -/
theorem exec_bandsel_frame {s t : State} (h : exec .bandsel s = .next t) :
    t = { s with
      p1 := t.p1, p2 := t.p2, binLo := t.binLo, binHi := t.binHi, adcch := t.adcch
      inFlight := t.inFlight, seen := t.seen, env := t.env, stage := t.stage } := by
  rw [exec_bandsel] at h
  cases h
  simp only [State.advance, State.setBand, State.readPot2, State.readPot1, State.adcRead, State.startConversion,
    State.endConversion]

end Sys2Proof.Machine

namespace Sys2Proof

open Machine

/-- Settles O31, by the two readings and the floors, which the clamp leaves as they are. -/
theorem bandselComputesBand : Obligations.BandselComputesBand := by
  intro s
  obtain ⟨hlo, hhi⟩ := setBand_edges s.readPot1.readPot2
  rw [bandHigh_eq (setBand_room _) (BitVec.isLt _)] at hhi
  refine ⟨_, exec_bandsel s, rfl, ?secondReading, rfl, rfl, ?lower, ?upper, rfl, ?seen, ?env,
    exec_bandsel_frame (exec_bandsel s)⟩
  case secondReading => exact readPot1_conversionResult s
  case lower => exact hlo
  case upper => exact hhi
  case seen => simp
  case env => simp [Feed.after_succ]

/-- Settles O32, by the ranges of the two edges. -/
theorem bandStaysInRange : Obligations.BandStaysInRange := by
  intro s
  obtain ⟨hlow, horder, hhigh⟩ := setBand_range s.readPot1.readPot2
  refine ⟨_, exec_bandsel s, hlow, horder, hhigh, nyq_eq_half_len _, ?twoBins⟩
  case twoBins =>
    rw [State.advance_binLo, State.advance_binHi]
    omega

/-- Settles O33, by the floors at the ends of the two pots. -/
theorem potBoundaryBands : Obligations.PotBoundaryBands := by
  intro s
  obtain ⟨t, hexec, hroom, hlo, hhi⟩ := exec_bandsel_edges s
  have hnyq := three_le_nyq s.params.frame
  obtain ⟨-, hnyq'⟩ := nyq_range s.params.frame
  have hbottom : s.adcAnswer 0 = 0 → t.binLo.toNat = 1 := fun h => by
    rw [hlo, h]
    exact bandLow_bottom _
  have htop : t.binLo.toNat = s.params.frame.nyq - 1 ↔ s.adcAnswer 0 = 1023 := by
    rw [hlo, bandLow_eq_top_iff hnyq (s.adcAnswer 0).isLt, ← BitVec.toNat_inj]
    rfl
  have hhighest : s.adcAnswer 0 = 1023 →
      t.binLo.toNat = s.params.frame.nyq - 1 ∧ t.binHi.toNat = s.params.frame.nyq := fun h => by
    rw [hhi, htop.2 h]
    exact ⟨rfl, bandHigh_of_highest (by omega)⟩
  refine ⟨t, hexec, fun h _ => hhighest h, ?wide, ?narrow, fun h _ => hhighest h, ?middle, ?belowTop, htop⟩
  case wide =>
    intro h₁ h₂
    rw [hhi, h₂]
    exact ⟨hbottom h₁, bandHigh_top hroom⟩
  case narrow =>
    intro h₁ h₂
    rw [hhi, h₂]
    rw [hbottom h₁] at hroom ⊢
    exact ⟨rfl, bandHigh_bottom hroom⟩
  case middle =>
    intro h₁ h₂
    rw [hhi, hlo, h₁, h₂]
    cases s.params.frame <;> rfl
  case belowTop =>
    intro h
    rw [hlo, h]
    exact bandLow_below_top hnyq (by omega)

end Sys2Proof
end

section
/-! PROOF. ENERGY divides the sum of the rounded squares of the band by the number of its words, and silence goes
through the squares, the sums and the quotient as +0 (46_energy_integrator.md R190 to R195). -/

namespace Sys2Proof.Machine

/-! The mean over the band -/

/-- The words of the band are the stored words at its indices, in ascending order (46_energy_integrator.md R195). -/
theorem bandWords_num (a : List NumWord) (lo hi : Nat) :
    bandWords num a lo hi = (List.range' lo (hi + 1 - lo)).map (fun b => a.getD b F64.zero) := by
  rw [List.range'_eq_map_range, List.map_map, bandWords]
  simp only [wordAt, Numeric.zero_num, Function.comp_def]

/-- The mean in binary64, as a sum over the band's indices. -/
theorem bandEnergy_num (a : List NumWord) (lo hi : Nat) :
    bandEnergy num a lo hi = F64.div
      ((List.range' lo (hi + 1 - lo)).foldl
        (fun acc b => F64.add acc (F64.mul (a.getD b F64.zero) (a.getD b F64.zero))) F64.zero)
      (F64.ofInt ((hi : Int) - lo + 1)) := by
  rw [bandEnergy, sumSquares, bandWords_num, List.foldl_map, Numeric.zero_num]
  rfl

theorem exec_energy_refused {s : State} (h : s.energySized = false) : exec .energy s = .refused .arraySize := by
  change execEnergy s = _
  simp [execEnergy, h]

/-! Silence (46_energy_integrator.md R194) -/

/-- Each square of a zero is +0, and so is each sum with it. -/
theorem sumSquares_of_isZero {m : List NumWord} (hm : ∀ x ∈ m, F64.isZero x) : sumSquares num m = F64.zero := by
  rw [sumSquares, Numeric.zero_num]
  induction m with
  | nil => rfl
  | cons x m ih =>
    have hsum : F64.add F64.zero (F64.mul x x) = F64.zero := by
      rw [F64.mul_self_of_isZero (hm x List.mem_cons_self)]
      decide +kernel
    rw [List.foldl_cons, num_add, num_mul, hsum]
    exact ih fun y hy => hm y (List.mem_cons_of_mem x hy)

/-- +0 divided by a positive number is +0. -/
theorem F64.zero_div_of_pos {b : NumWord} (hf : F64.isFinite b = true) (hsign : F64.isNeg b = false)
    (h0 : F64.mag b ≠ 0) : F64.div F64.zero b = F64.zero := by
  rw [F64.div_finite F64.isZero_zero.1 hf h0, F64.isZero_zero.2, zero_mul, F64.round, F64.roundMag_zero, hsign]
  decide

/-- A count of up to 53 bits, as that of the words of a band, is a positive number of the format (00_scope.md R11). -/
theorem F64.ofInt_pos {n : Nat} (hn : 0 < n) (hn' : n < 2 ^ 53) :
    F64.isFinite (F64.ofInt n) = true ∧ F64.isNeg (F64.ofInt n) = false ∧ F64.mag (F64.ofInt n) ≠ 0 := by
  obtain ⟨hfin, hrat⟩ := F64.ofInt_exact (k := n) (by simpa using hn')
  have hsign : decide ((n : Int) < 0) = false := decide_eq_false (Int.natCast_nonneg n).not_gt
  refine ⟨hfin, ?_, fun hzero => ?_⟩
  · rw [F64.ofInt, (F64.round_spec _ _ _).1, hsign]
  · rw [F64.toRat_of_zero hzero] at hrat
    exact hn.ne (by exact_mod_cast hrat)

/-- A band of zeros has the energy +0. -/
theorem bandEnergy_of_isZero {a : List NumWord} {lo hi : Nat} (hlo : lo ≤ hi) (hhi : hi < 2 ^ 52)
    (ha : ∀ b, lo ≤ b → b ≤ hi → F64.isZero (a.getD b F64.zero)) : bandEnergy num a lo hi = F64.zero := by
  have hwords : ∀ x ∈ bandWords num a lo hi, F64.isZero x := by
    intro x hx
    rw [bandWords_num] at hx
    obtain ⟨b, hb, rfl⟩ := List.mem_map.1 hx
    obtain ⟨hb₁, hb₂⟩ := List.mem_range'_1.1 hb
    exact ha b hb₁ (by omega)
  have hcount : (hi : Int) - lo + 1 = (hi + 1 - lo : Nat) := by omega
  obtain ⟨hfin, hsign, hmag⟩ := F64.ofInt_pos (n := hi + 1 - lo) (by omega) (by omega)
  rw [bandEnergy, sumSquares_of_isZero hwords, hcount]
  exact F64.zero_div_of_pos hfin hsign hmag

end Sys2Proof.Machine

namespace Sys2Proof

open Machine

/-- Settles O34, by what ENERGY answers and the mean over the band's indices. -/
theorem energyIsBandMean : Obligations.EnergyIsBandMean :=
  ⟨fun s h => ⟨_, exec_energy s h, bandEnergy_num _ _ _, rfl, rfl⟩, fun _ => exec_energy_refused⟩

/-- Settles O35: rounding keeps the bound of the sum and of its mean, and silence stays +0. -/
theorem energyNonNegative : Obligations.EnergyNonNegative := by
  intro s hsized hband hbound
  have hhi : s.binHi.toNat < 2 ^ 52 := s.binHi.isLt.trans (by norm_num)
  exact ⟨_, exec_energy s hsized, bandEnergy_within hbound hband.le hhi, bandEnergy_of_isZero hband.le hhi⟩

end Sys2Proof
end

section
/-! PROOF. AGC's five steps in the order of R200 with the words of its constants, the ranges they keep, and what
they do in silence: the factor on the gain is one word above 1, and a normal number times it is a greater one
(47_agc_smoother.md R200 to R210). -/

namespace Sys2Proof.Machine

/-! Finite results have finite operands -/

theorem F64.isFinite_of_not {x : NumWord} (hnan : F64.isNaN x = false) (hinf : F64.isInf x = false) :
    F64.isFinite x = true := by
  unfold F64.isNaN at hnan
  unfold F64.isInf at hinf
  unfold F64.isFinite
  by_cases hfrac : F64.fracField x = 0 <;> simp_all

theorem F64.isFinite_inf (neg : Bool) : F64.isFinite (F64.inf neg) = false := by
  cases neg <;> decide

theorem F64.isFinite_of_add {a b : NumWord} (h : F64.isFinite (F64.add a b) = true) :
    F64.isFinite a = true ∧ F64.isFinite b = true := by
  have hnan : F64.isFinite F64.nan = false := by decide
  unfold F64.add at h
  split at h
  · simp [hnan] at h
  split at h
  · split at h
    · simp [hnan] at h
    · rename_i hinf _
      rw [F64.not_inf_of_finite h] at hinf
      cases hinf
  split at h
  · rename_i hinf
    rw [F64.not_inf_of_finite h] at hinf
    cases hinf
  · simp_all [F64.isFinite_of_not]

theorem F64.isFinite_of_mul {a b : NumWord} (h : F64.isFinite (F64.mul a b) = true) :
    F64.isFinite a = true ∧ F64.isFinite b = true := by
  have hnan : F64.isFinite F64.nan = false := by decide
  unfold F64.mul at h
  split at h
  · simp [hnan] at h
  split at h
  · split at h <;> simp [hnan, F64.isFinite_inf] at h
  split at h
  · split at h <;> simp [hnan, F64.isFinite_inf] at h
  · simp_all [F64.isFinite_of_not]

/-! The constants' words (00_scope.md R7) and the steps in binary64 -/

theorem emaAlpha_num : emaAlpha num = 0x3FC999999999999A := by decide +kernel

theorem targetLevel_num : targetLevel num = 0x3FD6666666666666 := by decide +kernel

theorem agcStep_num : agcStep num = 0x3F8EB851EB851EB8 := by decide +kernel

theorem agcMin_num : agcMin num = 0x3FA999999999999A := by decide +kernel

theorem agcMax_num : agcMax num = 0x4069000000000000 := by decide +kernel

theorem smoothed_num (ema e : NumWord) : smoothed num ema e =
    F64.add (F64.mul (F64.sub 0x3FF0000000000000 0x3FC999999999999A) ema)
      (F64.mul 0x3FC999999999999A e) := by
  rw [smoothed, Numeric.one_num, emaAlpha_num, num_add, num_mul, num_sub, F64.one]

theorem gainProduct_num (gain m : NumWord) : gainProduct num gain m = F64.mul gain
    (F64.add 0x3FF0000000000000 (F64.mul 0x3F8EB851EB851EB8 (F64.sub 0x3FD6666666666666 m))) := by
  rw [gainProduct, Numeric.one_num, agcStep_num, targetLevel_num, num_add, num_mul, num_sub, F64.one]

/-- `min` in binary64, where it answers (00_scope.md R11). -/
theorem Numeric.min_num {a b m : NumWord} (h : Numeric.min num a b = some m) :
    F64.isFinite a = true ∧ F64.isFinite b = true ∧ m = if F64.val b < F64.val a then b else a := by
  unfold Numeric.min at h
  split at h
  · rename_i hf
    obtain ⟨ha, hb⟩ := Bool.and_eq_true_iff.1 hf
    injection h with h
    exact ⟨ha, hb, by simp [← h, num_lt, F64.lt]⟩
  · cases h

theorem measured_num {ema gain m : NumWord} (h : measured num ema gain = some m) :
    F64.isFinite (F64.mul ema gain) = true ∧
      m = if F64.val (F64.mul ema gain) < F64.val F64.one then F64.mul ema gain else F64.one := by
  rw [measured, Numeric.one_num] at h
  obtain ⟨-, hf, hm⟩ := Numeric.min_num h
  exact ⟨hf, hm⟩

theorem adaptedGain_num {gain m g : NumWord} (h : adaptedGain num gain m = some g) :
    g = if F64.val (gainProduct num gain m) < F64.val (agcMin num) then agcMin num
      else if F64.val (agcMax num) < F64.val (gainProduct num gain m) then agcMax num
      else gainProduct num gain m := by
  obtain ⟨-, hg⟩ := Numeric.clamp_num h
  exact hg

theorem levelOf_num {ema gain l : NumWord} (h : levelOf num ema gain = some l) :
    l = if F64.val (F64.sqrt (F64.mul ema gain)) < 0 then F64.zero
      else if F64.val F64.one < F64.val (F64.sqrt (F64.mul ema gain)) then F64.one
      else F64.sqrt (F64.mul ema gain) := by
  rw [levelOf, Numeric.zero_num, Numeric.one_num] at h
  obtain ⟨-, hl⟩ := Numeric.clamp_num h
  rwa [F64.val_zero] at hl

/-- The smoothed energy of two numbers that are not negative is not negative (47_agc_smoother.md R207). -/
theorem smoothed_nonneg {ema e : NumWord} (hf : F64.isFinite (smoothed num ema e) = true)
    (hema : 0 ≤ F64.val ema) (he : 0 ≤ F64.val e) : 0 ≤ F64.val (smoothed num ema e) := by
  rw [smoothed_num] at hf ⊢
  obtain ⟨hold, hnew⟩ := F64.isFinite_of_add hf
  obtain ⟨hweight, hfema⟩ := F64.isFinite_of_mul hold
  obtain ⟨halpha, hfe⟩ := F64.isFinite_of_mul hnew
  have hold0 := (F64.isRounding_mul hweight hfema).nonneg (mul_nonneg (by decide +kernel) hema)
  have hnew0 := (F64.isRounding_mul halpha hfe).nonneg (mul_nonneg (by decide +kernel) he)
  exact (F64.isRounding_add hold hnew).nonneg (add_nonneg hold0 hnew0)

/-! Silence (47_agc_smoother.md R210) -/

theorem F64.isZero_cases {x : NumWord} (h : F64.isZero x) : x = F64.zero ∨ x = F64.negZero := by
  obtain ⟨-, hmag⟩ := h
  have hfields : x.toNat % 2 ^ 63 = 0 := by
    rw [F64.mag_eq] at hmag
    exact F64.fieldsMag_strictMono.injective (hmag.trans (by decide))
  have hword : x.toNat = 0 ∨ x.toNat = 2 ^ 63 := by
    have := x.isLt
    omega
  exact hword.imp BitVec.eq_of_toNat_eq BitVec.eq_of_toNat_eq

theorem F64.isZero.within_pow52 {x : NumWord} (h : F64.isZero x) : F64.within F64.zero F64.pow52 x := by
  refine F64.within_zero_of_mag_le h.1 (F64.val_of_mag_zero h.2).ge (by decide +kernel) ?_
  rw [h.2]
  exact Nat.zero_le _

theorem smoothed_of_isZero {ema e : NumWord} (hema : F64.isZero ema) (he : F64.isZero e) :
    F64.isZero (smoothed num ema e) := by
  rw [smoothed_num]
  exact F64.isZero_add (F64.isZero_mul (by decide +kernel) hema) (F64.isZero_mul (by decide +kernel) he)

theorem F64.isZero_mul_left {a b : NumWord} (ha : F64.isZero a) (hb : F64.isFinite b = true) :
    F64.isZero (F64.mul a b) := by
  have h := F64.isRounding_mul ha.1 hb
  rw [F64.val_of_mag_zero ha.2, zero_mul] at h
  exact h.isZero

/-- The measured level of silence is a zero. -/
theorem measured_of_isZero {ema gain m : NumWord} (hema : F64.isZero ema) (hgain : F64.isFinite gain = true)
    (h : measured num ema gain = some m) : F64.isZero m := by
  obtain ⟨-, rfl⟩ := measured_num h
  have hproduct := F64.isZero_mul_left hema hgain
  have hlt : F64.val (F64.mul ema gain) < F64.val F64.one := by
    rw [F64.val_of_mag_zero hproduct.2]
    decide +kernel
  rwa [if_pos hlt]

/-- The clamp to `[0, 1]` leaves a zero of either sign. -/
theorem clamp_unit_of_isZero {x r : NumWord} (hx : F64.isZero x)
    (h : Numeric.clamp num x F64.zero F64.one = some r) : r = x := by
  obtain ⟨-, rfl⟩ := Numeric.clamp_num h
  rw [F64.val_of_mag_zero hx.2, F64.val_zero, if_neg (lt_irrefl 0), if_neg (by decide +kernel)]

theorem levelOf_of_isZero {ema gain l : NumWord} (hema : F64.isZero ema) (hgain : F64.isFinite gain = true)
    (h : levelOf num ema gain = some l) : F64.isZero l := by
  have hroot := F64.sqrt_isZero (F64.isZero_mul_left hema hgain)
  rw [levelOf, Numeric.zero_num, Numeric.one_num, num_sqrt, num_mul] at h
  rwa [clamp_unit_of_isZero hroot h]

/-- The factor on the gain in silence: the word of `1 + 0.015 × 0.35`, each operation rounded. -/
def silentFactor : NumWord := 0x3FF015810624DD2F

theorem gainProduct_of_isZero (gain : NumWord) {m : NumWord} (hm : F64.isZero m) :
    gainProduct num gain m = F64.mul gain silentFactor := by
  rw [gainProduct_num]
  congr 1
  obtain rfl | rfl := F64.isZero_cases hm <;> decide +kernel

/-- Above the subnormals the next magnitude is at most one part in `2^52` greater. -/
theorem F64.fieldsMag_succ_le {w : Nat} (hw : 2 ^ 52 ≤ w) :
    2 ^ 52 * F64.fieldsMag (w + 1) ≤ (2 ^ 52 + 1) * F64.fieldsMag w := by
  obtain ⟨k, m, rfl, hlo, hhi⟩ : ∃ k m, w = k * 2 ^ 52 + m ∧ 2 ^ 52 ≤ m ∧ m < 2 ^ 53 :=
    ⟨w / 2 ^ 52 - 1, 2 ^ 52 + w % 2 ^ 52, by omega, by omega, by omega⟩
  rw [Nat.add_assoc, F64.fieldsMag_normal hlo hhi.le, F64.fieldsMag_normal (by omega) hhi, ← mul_assoc,
    ← mul_assoc]
  exact Nat.mul_le_mul_right _ (by omega)

/-- A normal number times one that exceeds 1 by at least one part in `2^52` has a greater magnitude. -/
theorem F64.mag_lt_mul {a c : NumWord} (ha : F64.isFinite a = true) (hnormal : 2 ^ 52 ≤ a.toNat % 2 ^ 63)
    (hcf : F64.isFinite c = true) (hc : (2 ^ 52 + 1) * F64.scale ≤ 2 ^ 52 * F64.mag c) :
    F64.mag a < F64.mag (F64.mul a c) := by
  have hfields := (F64.isFinite_iff a).1 ha
  rw [F64.mul_finite ha hcf, (F64.round_spec _ _ _).2.1, F64.mag_eq a]
  refine F64.fieldsMag_strictMono (Nat.lt_of_succ_le (F64.le_roundMag F64.scale_pos hfields ?_))
  refine Nat.le_of_mul_le_mul_left ?_ (by positivity : 0 < 2 ^ 52)
  calc 2 ^ 52 * (F64.fieldsMag (a.toNat % 2 ^ 63 + 1) * F64.scale)
      = 2 ^ 52 * F64.fieldsMag (a.toNat % 2 ^ 63 + 1) * F64.scale := by ring
    _ ≤ (2 ^ 52 + 1) * F64.fieldsMag (a.toNat % 2 ^ 63) * F64.scale :=
        Nat.mul_le_mul_right _ (F64.fieldsMag_succ_le hnormal)
    _ = F64.fieldsMag (a.toNat % 2 ^ 63) * ((2 ^ 52 + 1) * F64.scale) := by ring
    _ ≤ F64.fieldsMag (a.toNat % 2 ^ 63) * (2 ^ 52 * F64.mag c) := Nat.mul_le_mul_left _ hc
    _ = 2 ^ 52 * (F64.fieldsMag (a.toNat % 2 ^ 63) * F64.mag c) := by ring

/-- In silence the gain before its clamp is above the gain (47_agc_smoother.md R210). -/
theorem lt_mul_silentFactor {gain : NumWord} (h : F64.within (agcMin num) (agcMax num) gain) :
    F64.val gain < F64.val (F64.mul gain silentFactor) := by
  have hgain0 := gain_nonneg h
  obtain ⟨hfin, hmin, -⟩ := h
  have hfactor : F64.isFinite silentFactor = true := by decide
  have hnormal : 2 ^ 52 ≤ gain.toNat % 2 ^ 63 := by
    have hmag : F64.mag (agcMin num) ≤ F64.mag gain := by
      have hmin0 : 0 ≤ F64.val (agcMin num) := by decide +kernel
      rw [← F64.natAbs_val, ← F64.natAbs_val gain]
      omega
    rw [F64.mag_eq, F64.mag_eq gain, F64.fieldsMag_le, agcMin_num] at hmag
    exact le_trans (by decide) hmag
  have hlt := F64.mag_lt_mul hfin hnormal hfactor (by decide +kernel)
  have hproduct0 := (F64.isRounding_mul hfin hfactor).nonneg (mul_nonneg hgain0 (by decide +kernel))
  rw [← F64.natAbs_val, ← F64.natAbs_val (F64.mul _ _)] at hlt
  omega

/-- In silence the clamped gain rises until it is at its ceiling. -/
theorem adaptedGain_of_isZero {gain m g : NumWord} (hgain : F64.within (agcMin num) (agcMax num) gain)
    (hm : F64.isZero m) (h : adaptedGain num gain m = some g) :
    F64.val gain ≤ F64.val g ∧ (F64.val gain < F64.val (agcMax num) → F64.val gain < F64.val g) := by
  have hlt := lt_mul_silentFactor hgain
  obtain ⟨-, hmin, hmax⟩ := hgain
  rw [adaptedGain_num h, gainProduct_of_isZero gain hm, if_neg (by omega)]
  split
  · exact ⟨hmax, id⟩
  · exact ⟨hlt.le, fun _ => hlt⟩

end Sys2Proof.Machine

namespace Sys2Proof

open Machine

/-- Settles O36: on the ranges of R207 the five steps answer, and each is its rounded operations on the words of
the constants. -/
theorem agcUpdatesControl : Obligations.AgcUpdatesControl := by
  intro s hema he hgain
  rw [← agcMin_num, ← agcMax_num] at hgain
  obtain ⟨c, hc⟩ := agcUpdate_isSome hema hgain he
  obtain ⟨hsmoothed, m, hm, hg, hl⟩ := agcUpdate_some hc
  rw [← hsmoothed] at hm hl
  obtain ⟨-, hm⟩ := measured_num hm
  have hg := adaptedGain_num hg
  rw [agcMin_num, agcMax_num] at hg
  exact ⟨_, m, _, _, exec_agc hc, hsmoothed.trans (smoothed_num _ _), hm, gainProduct_num _ _, hg, rfl,
    levelOf_num hl, rfl, rfl⟩

/-- Settles O37: the two clamps give the ranges whatever the operands, and where AGC answers the smoothed energy is
finite, so that it is the rounded sum of two products that are not negative. -/
theorem agcKeepsRanges : Obligations.AgcKeepsRanges := by
  intro s t h
  obtain ⟨c, hc, rfl⟩ := exec_agc_next h
  obtain ⟨hsmoothed, m, hm, hg, hl⟩ := agcUpdate_some hc
  have hgain := adaptedGain_within hg
  rw [agcMin_num, agcMax_num] at hgain
  refine ⟨hgain, levelOf_within hl, fun hema he => ?_⟩
  change 0 ≤ F64.val c.ema
  rw [hsmoothed]
  obtain ⟨hproduct, -⟩ := measured_num hm
  obtain ⟨hfin, -⟩ := F64.isFinite_of_mul hproduct
  exact smoothed_nonneg hfin hema he

/-- Settles O38: zeros go through the smoother and the root, and the gain is multiplied by a word above 1. -/
theorem agcSilence : Obligations.AgcSilence := by
  intro s hema he hgain
  obtain ⟨c, hc⟩ := agcUpdate_isSome hema.within_pow52 hgain he.within_pow52
  obtain ⟨hsmoothed, m, hm, hg, hl⟩ := agcUpdate_some hc
  have hzero := smoothed_of_isZero hema he
  obtain ⟨hle, hlt⟩ := adaptedGain_of_isZero hgain (measured_of_isZero hzero hgain.1 hm) hg
  obtain ⟨hfin, -, hmax⟩ := adaptedGain_within hg
  refine ⟨_, exec_agc hc, ?ema, levelOf_of_isZero hzero hfin hl, hle, hmax, hlt⟩
  case ema =>
    change F64.isZero c.ema
    rwa [hsmoothed]

end Sys2Proof
end

section
/-! PROOF. The control loop over the reals: the smoother from 0 is a geometric approach to a constant energy, and
the third row of the resting points is a fixed point of AGC (47_agc_smoother.md R201, R209). -/

namespace Sys2Proof.Machine

/-! The helper functions and the steps over the reals -/

theorem Numeric.min_real {a b : ℝ} (h : b ≤ a) : Numeric.min realArith a b = some b := by
  obtain hlt | rfl := h.lt_or_eq
  · simp [Numeric.min, realArith, hlt]
  · simp [Numeric.min, realArith]

theorem Numeric.clamp_real {x lo hi : ℝ} (hlo : lo ≤ x) (hhi : x ≤ hi) :
    Numeric.clamp realArith x lo hi = some x := by
  simp [Numeric.clamp, realArith, hlo.not_gt, hhi.not_gt]

theorem smoothed_real (ema e : ℝ) : smoothed realArith ema e = 4 / 5 * ema + 1 / 5 * e := by
  simp only [smoothed, emaAlpha, Numeric.one, realArith]
  norm_num

theorem smoothed_real_self (e : ℝ) : smoothed realArith e e = e := by
  rw [smoothed_real]
  ring

theorem measured_real {ema gain : ℝ} (h : ema * gain ≤ 1) : measured realArith ema gain = some (ema * gain) :=
  Numeric.min_real (h.trans_eq (by simp [Numeric.one, realArith]))

/-- At the target level the gain is not changed (47_agc_smoother.md R203, R204). -/
theorem gainProduct_real_target (gain : ℝ) : gainProduct realArith gain (35 / 100) = gain := by
  simp [gainProduct, targetLevel, Numeric.one, realArith]

theorem adaptedGain_real_target {gain : ℝ} (hlo : 5 / 100 ≤ gain) (hhi : gain ≤ 200) :
    adaptedGain realArith gain (35 / 100) = some gain := by
  rw [adaptedGain, gainProduct_real_target]
  refine Numeric.clamp_real (le_trans (le_of_eq ?_) hlo) (hhi.trans_eq ?_) <;> simp [agcMin, agcMax, realArith]

theorem levelOf_real {ema gain : ℝ} (h : ema * gain ≤ 1) :
    levelOf realArith ema gain = some (Real.sqrt (ema * gain)) := by
  have hzero : Numeric.zero realArith = 0 := Int.cast_zero
  have hone : Numeric.one realArith = 1 := Int.cast_one
  rw [levelOf, hzero, hone]
  exact Numeric.clamp_real (Real.sqrt_nonneg _) (Real.sqrt_le_one.2 h)

/-- The duty of a level in `[0, 1]` whose square is known (48_renderer.md R220, R221). -/
theorem dutyOfLevel_real_sqrt {y : ℝ} (h0 : 0 ≤ y) (h1 : y ≤ 1) :
    dutyOfLevel realArith (Real.sqrt y) = some ⌊y * 255 + 1 / 2⌋ := by
  have hzero : Numeric.zero realArith = 0 := Int.cast_zero
  have hone : Numeric.one realArith = 1 := Int.cast_one
  rw [dutyOfLevel, hzero, hone, Numeric.clamp_real (Real.sqrt_nonneg y) (Real.sqrt_le_one.2 h1)]
  simp [Numeric.roundHalfUp, Numeric.half, gammaScaled, realArith, Real.mul_self_sqrt h0]

end Sys2Proof.Machine

namespace Sys2Proof

open Machine

/-- Settles O40, by induction on the frames: each takes four fifths of what is missing to `E`. -/
theorem emaGeometricReal : Obligations.EmaGeometricReal := by
  intro e k
  induction k with
  | zero => simp
  | succ k ih =>
    rw [Function.iterate_succ_apply', ih, smoothed_real]
    ring

/-- Settles O41: at `EMA = E`, `GAIN = 0.35/E` the measured level is the target, and no step changes
anything. -/
theorem agcRestingPointReal : Obligations.AgcRestingPointReal := by
  intro e hlo hhi
  have hpos : 0 < e := lt_of_lt_of_le (by norm_num) hlo
  have hproduct : e * (35 / 100 / e) = 35 / 100 := mul_div_cancel₀ _ hpos.ne'
  have hle : e * (35 / 100 / e) ≤ 1 := by
    rw [hproduct]
    norm_num
  have hmin : 5 / 100 ≤ 35 / 100 / e := (le_div_iff₀ hpos).2 (by linarith)
  have hmax : 35 / 100 / e ≤ 200 := (div_le_iff₀ hpos).2 (by linarith)
  refine ⟨?rest, ?duty⟩
  case rest =>
    simp only [agcUpdate, smoothed_real_self, measured_real hle, levelOf_real hle, hproduct,
      adaptedGain_real_target hmin hmax]
  case duty =>
    rw [dutyOfLevel_real_sqrt (by norm_num) (by norm_num), Option.some_inj, Int.floor_eq_iff]
    norm_num

end Sys2Proof
end

section
/-! PROOF. A silent run stays dark: zeros go through every operation, so that from reset, where all that bears on
the lamp is zero, answers of 512 to the audio conversions keep it so (44_fft.md R171; 46_energy_integrator.md R194;
47_agc_smoother.md R210; 60_exceptions.md R263). -/

namespace Sys2Proof.Machine

/-! The duty of silence -/

theorem dutyOfLevel_of_isZero {level : NumWord} {d : Int} (hlevel : F64.isZero level)
    (h : dutyOfLevel num level = some d) : d = 0 := by
  obtain ⟨x, hx⟩ := Numeric.clamp_isSome F64.zero F64.one hlevel.1
  obtain rfl := clamp_unit_of_isZero hlevel hx
  have hscaled : gammaScaled num x = F64.zero := by
    rw [gammaScaled, num_mul, num_ofInt, F64.mul_self_of_isZero hlevel]
    decide +kernel
  have hround : Numeric.roundHalfUp num F64.zero = some 0 := by decide +kernel
  simp only [dutyOfLevel, Numeric.zero_num, Numeric.one_num, hx, hscaled, hround] at h
  exact (Option.some_inj.1 h).symm

/-! The silent answers -/

/-- Every request of channel 0 among the requests to come is answered 512, the level of silence
(43_sampler.md R144). -/
def Quiet (requests : List (BitVec 2)) (answers : Feed (BitVec 10)) : Prop :=
  ∀ j, requests[j]? = some 0 → answers.answer Config.adcAnswer j = 512

theorem Quiet.left {a b : List (BitVec 2)} {f : Feed (BitVec 10)} (h : Quiet (a ++ b) f) : Quiet a f :=
  fun j hj => h j (List.getElem?_append_left (List.getElem?_eq_some_iff.1 hj).1 ▸ hj)

theorem Feed.answer_after {α : Type} (free : Nat → α) (f : Feed α) (m j : Nat) :
    (f.after m).answer free j = f.answer free (m + j) := by
  simp [Feed.answer, Feed.after, Nat.add_assoc]

theorem Quiet.right {a b : List (BitVec 2)} {f : Feed (BitVec 10)} (h : Quiet (a ++ b) f) :
    Quiet b (f.after a.length) := fun j hj => by
  rw [Feed.answer_after]
  exact h _ (by simpa [List.getElem?_append_right] using hj)

/-- An operation takes one answer for each of its requests. -/
theorem exec_answers_taken {i : Instr} {s t : State} (h : exec i s = .next t) :
    t.env.adc = s.env.adc.after (requestsOf s.len i).length := by
  by_cases hi : i = .sample
  · subst hi
    obtain ⟨-, rfl⟩ := exec_sample_next h
    rw [requestsOf, List.length_replicate]
    exact sampleLoop_adc s.len s.sampleStart
  by_cases hj : i = .bandsel
  · subst hj
    rw [exec_bandsel] at h
    cases h
    have htwo : s.env.adc.after 2 = s.env.adc.rest.rest := by
      rw [Feed.after_succ, Feed.after_succ, Feed.after_zero]
    exact htwo.symm
  · obtain ⟨-, -, -, -, -, -, -, -, -, -, -, -, -, -, -, -, -, hadc, -⟩ := registersHaveOneWriter i s t h
    obtain ⟨-, -, hanswers, -⟩ := hadc hi hj
    rw [hanswers, requestsOf_of_ne hi hj]
    rfl

/-! The dark states -/

/-- All that bears on the lamp is zero: the frame, the energies, the level and the duties. -/
structure State.Dark (s : State) : Prop where
  frame : Complexes.Silent ⟨s.vReal, s.vImag⟩
  ema : F64.isZero s.ema
  energy : F64.isZero s.e
  level : F64.isZero s.level
  duty : s.duty = 0
  duties : ∀ d ∈ s.seen.duties, d = 0

theorem dark_resetWith (p : Config.Params) (v : Env) : (State.resetWith p v).Dark where
  frame :=
    { re_zero := fun _ hx => List.eq_of_mem_replicate hx ▸ F64.isZero_zero
      im_zero := fun _ hx => List.eq_of_mem_replicate hx ▸ F64.isZero_zero }
  ema := F64.isZero_zero
  energy := F64.isZero_zero
  level := F64.isZero_zero
  duty := rfl
  duties := nofun

/-- A sample at the level of silence is stored as a zero (43_sampler.md R144). -/
theorem sampleWord_of_silence {s : State} {j : Nat} (hs : s.Inv) (h : s.adcAnswer j = 512) :
    F64.isZero (s.sampleWord j) := by
  have hcentered : F64.isZero (F64.ofInt (centered 512)) := ⟨by decide +kernel, by decide +kernel⟩
  have hcoeff : F64.isFinite (wordAt num s.hann j) = true :=
    wordAt_of_forall (P := fun x => F64.isFinite x = true) (fun x hx => (hs.window_range x hx).1)
      F64.isZero_zero.1 j
  rw [State.sampleWord, h, windowedSample, num_mul, num_ofInt]
  exact F64.isZero_mul_left hcentered hcoeff

theorem State.Inv.rom_finite {s : State} (hs : s.Inv) :
    (∀ x ∈ s.twRe, F64.isFinite x = true) ∧ ∀ x ∈ s.twIm, F64.isFinite x = true := by
  obtain ⟨hre, him⟩ := Twiddles.unit_rom s.len
  rw [← hs.rom_re] at hre
  rw [← hs.rom_im] at him
  refine ⟨fun x hx => ?_, fun x hx => ?_⟩
  · obtain ⟨k, -, rfl⟩ := exists_wordAt_of_mem hx
    exact (hre k).1
  · obtain ⟨k, -, rfl⟩ := exists_wordAt_of_mem hx
    exact (him k).1

/-! Each clause with its writers -/

section
variable {i : Instr} {s t : State} (hs : s.Inv) (hdark : s.Dark) (h : exec i s = .next t)
include hs hdark h

theorem exec_dark_frame (hquiet : Quiet (requestsOf s.len i) s.env.adc) :
    Complexes.Silent ⟨t.vReal, t.vImag⟩ := by
  by_cases hi : i = .sample
  · subst hi
    obtain ⟨hsized, rfl⟩ := exec_sample_next h
    have hwords : ∀ x ∈ (List.range s.len).map s.sampleWord, F64.isZero x := by
      intro x hx
      obtain ⟨j, hj, rfl⟩ := List.mem_map.1 hx
      have hrequest : (List.replicate s.len (0 : BitVec 2))[j]? = some 0 :=
        List.getElem?_replicate_of_lt (List.mem_range.1 hj)
      exact sampleWord_of_silence hs (hquiet j hrequest)
    have hzeros : ∀ x ∈ List.replicate s.len F64.zero, F64.isZero x :=
      fun x hx => List.eq_of_mem_replicate hx ▸ F64.isZero_zero
    rw [← sampleStart_loop_vReal hsized] at hwords
    rw [← sampleStart_loop_vImag hsized] at hzeros
    exact ⟨hwords, hzeros⟩
  by_cases hj : i = .fft
  · subst hj
    obtain ⟨htwRe, htwIm⟩ := hs.rom_finite
    obtain ⟨u, hu, hre, him⟩ := silentFrameTransformsToZero s hs.fftSized hdark.frame.re_zero
      hdark.frame.im_zero htwRe htwIm
    cases h.symm.trans hu
    exact ⟨fun x hx => hre x hx ▸ F64.isZero_zero, him⟩
  · obtain ⟨hre, him⟩ := (exec_frame h).buffers hi hj
    rw [hre, him]
    exact hdark.frame

theorem exec_dark_energy : F64.isZero t.e := by
  by_cases hi : i = .energy
  · subst hi
    obtain ⟨-, rfl⟩ := exec_energy_next h
    have henergy : bandEnergy num s.vReal s.binLo.toNat s.binHi.toNat = F64.zero :=
      bandEnergy_of_isZero hs.band_order.le (s.binHi.isLt.trans (by norm_num)) fun b _ _ => by
        rw [← Numeric.zero_num]
        exact (hdark.frame.isZero_wordAt b).1
    exact henergy ▸ F64.isZero_zero
  · rw [(exec_frame h).energy hi]
    exact hdark.energy

theorem exec_dark_control : F64.isZero t.ema ∧ F64.isZero t.level := by
  by_cases hi : i = .agc
  · subst hi
    obtain ⟨u, hu, hema, hlevel, -⟩ := agcSilence s hdark.ema hdark.energy hs.gain_range
    cases h.symm.trans hu
    exact ⟨hema, hlevel⟩
  · obtain ⟨hema, -, hlevel⟩ := (exec_frame h).control hi
    rw [hema, hlevel]
    exact ⟨hdark.ema, hdark.level⟩

omit hs in
theorem exec_dark_duty : t.duty = 0 := by
  by_cases hi : i = .render
  · subst hi
    obtain ⟨d, hd, rfl⟩ := exec_render_next h
    rw [dutyOfLevel_of_isZero hdark.level hd]
    rfl
  · obtain ⟨-, -, -, -, -, -, -, -, hduty, -⟩ := registersHaveOneWriter i s t h
    rw [hduty hi, hdark.duty]

omit hs in
theorem exec_dark_duties : ∀ d ∈ t.seen.duties, d = 0 := by
  by_cases hi : i = .pwmwr
  · subst hi
    rw [exec_pwmwr] at h
    cases h
    intro d hd
    obtain hd | hd := List.mem_append.1 hd
    · exact hdark.duties d hd
    · rw [List.mem_singleton.1 hd, hdark.duty]
  · obtain ⟨-, -, -, -, -, -, -, -, -, -, -, -, -, -, -, -, hduties, -⟩ := registersHaveOneWriter i s t h
    rw [hduties hi]
    exact hdark.duties

end

/-- An operation keeps a state dark if its audio conversions are answered with silence. -/
theorem exec_dark {i : Instr} {s t : State} (hs : s.Inv) (hdark : s.Dark) (h : exec i s = .next t)
    (hquiet : Quiet (requestsOf s.len i) s.env.adc) : t.Dark where
  frame := exec_dark_frame hs hdark h hquiet
  ema := (exec_dark_control hs hdark h).1
  energy := exec_dark_energy hs hdark h
  level := (exec_dark_control hs hdark h).2
  duty := exec_dark_duty hdark h
  duties := exec_dark_duties hdark h

/-! A step and a run -/

theorem step_dark {i : Instr} {s u : State} (hs : s.Inv) (hrst : s.Released) (hstage : s.stage = encode i)
    (hdark : s.Dark) (hquiet : Quiet (requestsOf s.len i) s.env.adc) (h : step s = .next u) :
    u.Dark ∧ u.env.adc = s.env.adc.after (requestsOf s.len i).length := by
  obtain ⟨hasserted, -⟩ | ⟨-, -, -, j, t, hd, ht, rfl⟩ := step_next_cases h
  · rw [hrst.resetAsserted] at hasserted
    cases hasserted
  · rw [hstage, decode_encode] at hd
    cases hd
    have htaken := exec_answers_taken ht
    exact ⟨{ exec_dark hs hdark ht hquiet with }, htaken⟩

/-- A run of a sequence in the next-stage order stays dark if its audio conversions are answered with silence. -/
theorem run_dark {ops : List Instr} {s t : State} (hs : s.Inv) (hrst : s.Released) (hchain : chained ops = true)
    (hstage : ∀ i ∈ ops.head?, s.stage = encode i) (hdark : s.Dark)
    (hquiet : Quiet (ops.flatMap (requestsOf s.len)) s.env.adc)
    (hrun : Host.Core.run core ops.length s = .next t) : t.Dark := by
  induction ops generalizing s with
  | nil =>
    cases hrun
    exact hdark
  | cons i ops ih =>
    obtain ⟨hfollows, hchain⟩ := chained_cons hchain
    obtain ⟨u, hstep, hu, hurst, hustage, hperformed⟩ := step_performs hs hrst (hstage i rfl)
    rw [List.flatMap_cons] at hquiet
    obtain ⟨hudark, hadc⟩ := step_dark hs hrst (hstage i rfl) hdark hquiet.left hstep
    have hlen : u.len = s.len := by rw [State.len, hperformed.params, State.len]
    refine ih hu hurst hchain (fun j hj => hfollows j hj ▸ hustage) hudark ?_
      ((run_succ_of_step hstep _).symm.trans hrun)
    rw [hlen, hadc]
    exact hquiet.right

/-! The audio conversions of a run -/

/-- The places of the requests of channel 0 among those of a frame. -/
theorem audio_place_frame {len j : Nat} (h : (List.replicate len (0 : BitVec 2) ++ [1, 2])[j]? = some 0) :
    j < len := by
  by_contra! hle
  rw [List.getElem?_append_right (by simpa using hle), List.length_replicate] at h
  match hj : j - len with
  | 0 | 1 | n + 2 => simp [hj] at h

/-- The places of the requests of channel 0 among those of `k` frames of `len + 2` conversions. -/
theorem audio_place {len k j : Nat}
    (h : (List.replicate k (List.replicate len (0 : BitVec 2) ++ [1, 2])).flatten[j]? = some 0) :
    j < k * (len + 2) ∧ j % (len + 2) < len := by
  induction k generalizing j with
  | zero => simp at h
  | succ k ih =>
    rw [List.replicate_succ, List.flatten_cons] at h
    have hlength : (List.replicate len (0 : BitVec 2) ++ [1, 2]).length = len + 2 := by simp
    rw [Nat.succ_mul]
    by_cases hj : j < len + 2
    · rw [List.getElem?_append_left (hlength ▸ hj)] at h
      have := audio_place_frame h
      rw [Nat.mod_eq_of_lt hj]
      omega
    · rw [List.getElem?_append_right (by omega), hlength] at h
      obtain ⟨hlt, hmod⟩ := ih h
      rw [Nat.mod_eq_sub_mod (by omega)]
      omega

end Sys2Proof.Machine

namespace Sys2Proof

open Machine

/-- Settles O59: the reset state is dark, and `RUN k` requests channel 0 just at the places where the answers are
512. -/
theorem silentRunStaysDark : Obligations.SilentRunStaysDark := by
  intro p v k hrst hsilent
  obtain ⟨t, hrun, -, hlength, -⟩ := runFromResetCompletesFrames p v k hrst
  have hquiet : Quiet ((Pseudo.expand (.run k)).flatMap (requestsOf p.frame.len)) v.adc := by
    intro j hj
    rw [requestsOf_run] at hj
    obtain ⟨hlt, hmod⟩ := audio_place hj
    exact hsilent j hlt hmod
  obtain ⟨hwf, hcount, -⟩ := runPseudoOpIsProgram k
  have hdark : t.Dark := run_dark (inv_resetWith p v) hrst (chained_of_programWf hwf)
    (fun i hi => by cases hi; rfl) (dark_resetWith p v) hquiet (by rwa [hcount])
  exact ⟨t, hrun, hdark.ema, fun _ => hdark.energy, List.eq_replicate_iff.2 ⟨hlength, hdark.duties⟩⟩

end Sys2Proof
end

section
/-! PROOF. The machine's refusals: under the invariant no step is refused, and outside its ranges AGC refuses each
operand of `min` and `clamp` that is not finite (60_exceptions.md R260, R262; 47_agc_smoother.md R212). -/

namespace Sys2Proof.Machine

theorem step_of_reset {s : State} (h : s.resetAsserted = true) : step s = .next s.applyReset.dropReset := by
  rw [step, if_pos h]

/-- A legal stage encodes an operation (30_encoding.md R81). -/
theorem exists_decode {c : BitVec 4} (h : c.toNat ≤ 10) : ∃ i, decode c = .ok i := by
  obtain ⟨i, hi, -⟩ | ⟨hreserved, -⟩ := decode_cases c
  · exact ⟨i, hi⟩
  · omega

/-! AGC's five steps, by the first limit that refuses (47_agc_smoother.md R212) -/

section
variable {ema gain e m g : NumWord}

theorem agcUpdate_of_measured_none (h : measured num (smoothed num ema e) gain = none) :
    agcUpdate num ema gain e = none := by
  rw [agcUpdate, h]

theorem agcUpdate_of_adaptedGain_none (hm : measured num (smoothed num ema e) gain = some m)
    (h : adaptedGain num gain m = none) : agcUpdate num ema gain e = none := by
  simp only [agcUpdate, hm, h]

theorem agcUpdate_of_levelOf_none (hm : measured num (smoothed num ema e) gain = some m)
    (hg : adaptedGain num gain m = some g) (h : levelOf num (smoothed num ema e) g = none) :
    agcUpdate num ema gain e = none := by
  simp only [agcUpdate, hm, hg, h]

end

end Sys2Proof.Machine

namespace Sys2Proof

open Machine

/-- Settles O58: an asserted reset is a step, and otherwise the stage encodes an operation, no control register
holds a reserved value, and the operation answers. -/
theorem stepNeverStopsUnderInv : Obligations.StepNeverStopsUnderInv := by
  intro s hs
  cases hr : s.resetAsserted with
  | true => exact ⟨_, step_of_reset hr⟩
  | false =>
    obtain ⟨i, hd⟩ := exists_decode hs.stage_legal
    obtain ⟨t, ht⟩ := exec_answers hs i
    have hv : s.reservedValue = none := reservedValue_eq_none.2 ⟨hs.channel_legal, hs.config_legal⟩
    exact ⟨_, step_of_exec hr hd hv ht⟩

/-- Settles O39: each of `min` and the two `clamp`s refuses a number that is not finite, and AGC with it. -/
theorem agcRefusesNonFinite : Obligations.AgcRefusesNonFinite := by
  refine ⟨fun s hproduct => ?min, fun s m hm hgain => ?gain, fun s m g hm hg hroot => ?root⟩
  case min => exact exec_agc_refused (agcUpdate_of_measured_none (Numeric.min_eq_none.2 (.inr hproduct)))
  case gain => exact exec_agc_refused (agcUpdate_of_adaptedGain_none hm (Numeric.clamp_eq_none.2 hgain))
  case root => exact exec_agc_refused (agcUpdate_of_levelOf_none hm hg (Numeric.clamp_eq_none.2 hroot))

end Sys2Proof
end

section
/-! PROOF. The duty sequence is determined by the ADC results: every operation, the timer's turn and reset keep
the agreement of two states on what the duties depend on (70_reset_and_hazards.md R305; 43_sampler.md R150). -/

namespace Sys2Proof.Machine

/-! The state's operations on two states in agreement -/

section
variable {s t : State} (h : s.DutyAgree t)
include h

theorem State.DutyAgree.len : s.len = t.len := by
  rw [State.len, h.frame, State.len]

theorem State.DutyAgree.conversionResult : s.conversionResult = t.conversionResult := by
  rw [State.conversionResult, h.adc, State.conversionResult]

theorem State.DutyAgree.resetAsserted : s.resetAsserted = t.resetAsserted := by
  rw [State.resetAsserted, h.rst, State.resetAsserted]

theorem State.DutyAgree.transformed : s.transformed = t.transformed := by
  rw [State.transformed, h.frame, h.twRe, h.twIm, h.vReal, h.vImag, State.transformed]

theorem State.DutyAgree.advance (i : Instr) : (s.advance i).DutyAgree (t.advance i) :=
  { h with stage := rfl }

theorem State.DutyAgree.adcRead (c : Channel) : (s.adcRead c).DutyAgree (t.adcRead c) :=
  { h with adc := by rw [State.adcRead_env, State.adcRead_env, h.adc] }

theorem State.DutyAgree.sampleStart : s.sampleStart.DutyAgree t.sampleStart :=
  { h with i := rfl }

/-- A wait moves the microsecond clock alone, on which no duty depends (43_sampler.md R150). -/
theorem State.DutyAgree.sampleWait : s.sampleWait.DutyAgree t.sampleWait :=
  { h with }

theorem State.DutyAgree.sampleStore : s.sampleStore.DutyAgree t.sampleStore :=
  { h.adcRead .audio with
    i := by rw [State.sampleStore_i, State.sampleStore_i, h.i]
    raw := h.conversionResult
    vReal := by
      rw [State.sampleStore_vReal, State.sampleStore_vReal, h.i, h.vReal, h.hann, h.conversionResult]
    vImag := by rw [State.sampleStore_vImag, State.sampleStore_vImag, h.i, h.vImag] }

theorem State.DutyAgree.readPot1 : s.readPot1.DutyAgree t.readPot1 :=
  { h.adcRead .pot1 with p1 := h.conversionResult }

theorem State.DutyAgree.readPot2 : s.readPot2.DutyAgree t.readPot2 :=
  { h.adcRead .pot2 with p2 := h.conversionResult }

theorem State.DutyAgree.setBand : s.setBand.DutyAgree t.setBand :=
  { h with
    binLo := by rw [State.setBand_binLo, State.setBand_binLo, h.frame, h.p1]
    binHi := by rw [State.setBand_binHi, State.setBand_binHi, h.frame, h.p1, h.p2] }

theorem State.DutyAgree.runTimer : s.runTimer.DutyAgree t.runTimer :=
  { h with }

theorem State.DutyAgree.dropReset : s.dropReset.DutyAgree t.dropReset :=
  { h with rst := congrArg List.tail h.rst }

end

theorem State.DutyAgree.sampleLoop (k : Nat) {s t : State} (h : s.DutyAgree t) :
    (s.sampleLoop k).DutyAgree (t.sampleLoop k) := by
  induction k generalizing s t with
  | zero => exact h
  | succ k ih => exact ih h.sampleWait.sampleStore

/-! The operations -/

/-- BANNER writes nothing the duties depend on but `STAGE` (49_debug_trace.md R230). -/
theorem State.DutyAgree.exec_banner {s t s' t' : State} (h : s.DutyAgree t) (hs : exec .banner s = .next s')
    (ht : exec .banner t = .next t') : s'.DutyAgree t' := by
  rw [Machine.exec_banner] at hs ht
  cases hs
  cases ht
  split <;> split <;> exact { h with stage := rfl }

/-- TRACE writes nothing the duties depend on but `STAGE` (49_debug_trace.md R232). -/
theorem State.DutyAgree.exec_trace {s t s' t' : State} (h : s.DutyAgree t) (hs : exec .trace s = .next s')
    (ht : exec .trace t = .next t') : s'.DutyAgree t' := by
  obtain ⟨-, rfl⟩ | ⟨-, _, -, rfl⟩ := exec_trace_next hs <;>
    obtain ⟨-, rfl⟩ | ⟨-, _, -, rfl⟩ := exec_trace_next ht <;> exact { h with stage := rfl }

/-- Each operation computes what it writes from what the two states agree on. -/
theorem State.DutyAgree.exec {i : Instr} {s t s' t' : State} (h : s.DutyAgree t) (hs : exec i s = .next s')
    (ht : exec i t = .next t') : s'.DutyAgree t' := by
  cases i with
  | pwminit =>
    rw [exec_pwminit] at hs ht
    cases hs
    cases ht
    exact { h with stage := rfl, tcfg := rfl, ocr := rfl }
  | wininit =>
    rw [exec_wininit] at hs ht
    cases hs
    cases ht
    exact { h with stage := rfl, hann := congrArg (hannTable num) h.len }
  | banner => exact h.exec_banner hs ht
  | sample =>
    obtain ⟨-, rfl⟩ := exec_sample_next hs
    obtain ⟨-, rfl⟩ := exec_sample_next ht
    rw [h.len]
    exact (h.sampleStart.sampleLoop t.len).advance .sample
  | fft =>
    obtain ⟨-, rfl⟩ := exec_fft_next hs
    obtain ⟨-, rfl⟩ := exec_fft_next ht
    rw [h.transformed]
    exact { h with stage := rfl, vReal := rfl, vImag := rfl }
  | bandsel =>
    rw [exec_bandsel] at hs ht
    cases hs
    cases ht
    exact h.readPot1.readPot2.setBand.advance .bandsel
  | energy =>
    obtain ⟨-, rfl⟩ := exec_energy_next hs
    obtain ⟨-, rfl⟩ := exec_energy_next ht
    exact { h with stage := rfl, e := by rw [h.vReal, h.binLo, h.binHi] }
  | agc =>
    obtain ⟨c, hc, rfl⟩ := exec_agc_next hs
    obtain ⟨d, hd, rfl⟩ := exec_agc_next ht
    rw [h.ema, h.gain, h.e, hd] at hc
    cases hc
    exact { h with stage := rfl, ema := rfl, gain := rfl, level := rfl }
  | render =>
    obtain ⟨c, hc, rfl⟩ := exec_render_next hs
    obtain ⟨d, hd, rfl⟩ := exec_render_next ht
    rw [h.level, hd] at hc
    cases hc
    exact { h with stage := rfl, duty := rfl }
  | pwmwr =>
    rw [exec_pwmwr] at hs ht
    cases hs
    cases ht
    exact { h with stage := rfl, ocr := by rw [h.duty], duties := by rw [h.duties, h.duty] }
  | trace => exact h.exec_trace hs ht

/-! A step and a run -/

/-- Reset values depend on the build through `N` alone. -/
theorem dutyAgree_resetWith {p q : Config.Params} {v w : Env} (hframe : p.frame = q.frame)
    (hadc : v.adc = w.adc) (hrst : v.rst = w.rst) : (State.resetWith p v).DutyAgree (State.resetWith q w) := by
  constructor <;> simp [hframe, hadc, hrst]

theorem State.DutyAgree.step {s t s' t' : State} (h : s.DutyAgree t) (hs : step s = .next s')
    (ht : step t = .next t') : s'.DutyAgree t' := by
  obtain ⟨hr, rfl⟩ | ⟨hr, -, -, i, u, hd, hu, rfl⟩ := step_next_cases hs <;>
    obtain ⟨hr', rfl⟩ | ⟨hr', -, -, j, w, hd', hw, rfl⟩ := step_next_cases ht <;>
    rw [h.resetAsserted, hr'] at hr
  · exact (dutyAgree_resetWith h.frame h.adc h.rst).dropReset
  · cases hr
  · cases hr
  · rw [h.stage, hd'] at hd
    cases hd
    exact (h.exec hu hw).runTimer.dropReset

/-- The first step of a run that answers. -/
theorem run_succ_next {k : Nat} {s t : State} (h : Host.Core.run core (k + 1) s = .next t) :
    ∃ u, step s = .next u ∧ Host.Core.run core k u = .next t := by
  cases hstep : step s with
  | next u => exact ⟨u, rfl, (run_succ_of_step hstep k).symm.trans h⟩
  | fault r => exact nomatch r
  | refused r =>
    have hcore : core.step s = .refused r := hstep
    simp [Host.Core.run, hcore] at h

theorem State.DutyAgree.run (k : Nat) {s t s' t' : State} (h : s.DutyAgree t)
    (hs : Host.Core.run core k s = .next s') (ht : Host.Core.run core k t = .next t') : s'.DutyAgree t' := by
  induction k generalizing s t with
  | zero =>
    cases hs
    cases ht
    exact h
  | succ k ih =>
    obtain ⟨u, hu, hs⟩ := run_succ_next hs
    obtain ⟨w, hw, ht⟩ := run_succ_next ht
    exact ih (h.step hu hw) hs ht

/-- A run from a state with the invariant never stops (60_exceptions.md R260). -/
theorem run_answers (k : Nat) {s : State} (hs : s.Inv) : ∃ t, Host.Core.run core k s = .next t := by
  induction k generalizing s with
  | zero => exact ⟨s, rfl⟩
  | succ k ih =>
    obtain ⟨u, hu⟩ := stepNeverStopsUnderInv s hs
    obtain ⟨t, ht⟩ := ih (invKeptByStep s u hs hu)
    exact ⟨t, (run_succ_of_step hu k).trans ht⟩

end Sys2Proof.Machine

namespace Sys2Proof

open Machine

/-- Settles O60: agreement is kept by every step, and from reset, where the two states agree, both runs go on. -/
theorem dutySequenceDeterminism : Obligations.DutySequenceDeterminism := by
  refine ⟨fun k s t s' t' h hs ht => h.run k hs ht, fun k p q v w hframe hadc hrst => ?_⟩
  obtain ⟨s', hs⟩ := run_answers k (inv_resetWith p v)
  obtain ⟨t', ht⟩ := run_answers k (inv_resetWith q w)
  have hagree := (dutyAgree_resetWith hframe hadc hrst).run k hs ht
  exact ⟨s', t', hs, ht, hagree.duties⟩

end Sys2Proof
end

section
/-! PROOF. The reset state: the values of the reset table with the twiddle ROM word by word, the machine
invariant, and the step that an asserted reset takes (70_reset_and_hazards.md R290 to R292; 44_fft.md R164). -/

namespace Sys2Proof.Machine

/-! The twiddle ROM (44_fft.md R164) -/

theorem getElem?_twiddleRe {α : Type} (A : Config.Arith α) {p : Config.FrameLen} {k : Nat} (hk : k < p.half) :
    (twiddleRe A p.len)[k]? = some (A.cos (Numeric.angle A k p.len)) := by
  have hhalf : p.len / 2 = p.half := by cases p <;> rfl
  simp [twiddleRe, hhalf, hk]

theorem getElem?_twiddleIm {α : Type} (A : Config.Arith α) {p : Config.FrameLen} {k : Nat} (hk : k < p.half) :
    (twiddleIm A p.len)[k]? = some (A.neg (A.sin (Numeric.angle A k p.len))) := by
  have hhalf : p.len / 2 = p.half := by cases p <;> rfl
  simp [twiddleIm, hhalf, hk]

theorem half_pos (p : Config.FrameLen) : 0 < p.half := by
  cases p <;> decide

/-- The first angle of the ROM is a zero. -/
theorem Numeric.angle_rom_first (p : Config.FrameLen) : F64.mag (Numeric.angle num 0 p.len) = 0 := by
  cases p with
  | n128 => decide +kernel
  | n256 => decide +kernel

theorem twiddleRe_first (p : Config.FrameLen) : (twiddleRe num p.len)[0]? = some F64.one := by
  rw [getElem?_twiddleRe num (half_pos p), num_cos, Trig.cos_of_zero (Numeric.angle_rom_first p)]

theorem F64.isZero_neg {x : NumWord} (h : F64.isZero x) : F64.isZero (F64.neg x) :=
  ⟨F64.isFinite_neg h.1, by rw [← F64.natAbs_val, F64.val_neg, Int.natAbs_neg, F64.natAbs_val, h.2]⟩

theorem twiddleIm_first (p : Config.FrameLen) : ∃ w, (twiddleIm num p.len)[0]? = some w ∧ F64.isZero w := by
  have hzero := Numeric.angle_rom_first p
  refine ⟨_, getElem?_twiddleIm num (half_pos p), ?_⟩
  rw [num_neg, num_sin, Trig.sin_of_zero hzero]
  exact F64.isZero_neg (F64.isZero_of_mag hzero)

end Sys2Proof.Machine

namespace Sys2Proof

open Machine

/-- Settles O10: the ROM's words are those of the angles, the first of which is a zero; the other rows of the table
are the reset state's fields. -/
theorem resetValues : Obligations.ResetValues := by
  intro p v
  obtain ⟨hre, him⟩ := length_twiddles num p.frame
  refine ⟨rfl, rfl, rfl, rfl, F64.toRat_of_zero F64.isZero_zero.2, F64.toRat_one,
    ⟨hre, him, fun k hk => ⟨?re, ?im⟩, twiddleRe_first p.frame, twiddleIm_first p.frame⟩,
    rfl, rfl, rfl, rfl, rfl, rfl, rfl, rfl, rfl, ?pin⟩
  case pin => exact State.pwmOut_of_disabled (by decide : tcfgEn 0 = false)
  case re => rw [State.resetWith_twRe, getElem?_twiddleRe num hk, num_cos, Numeric.angle_num]
  case im => rw [State.resetWith_twIm, getElem?_twiddleIm num hk, num_neg, num_sin, Numeric.angle_num]

/-- Settles O11: the step of an asserted reset, whose stage 0 is the code of PWMINIT. -/
theorem resetAssertedRestoresState : Obligations.ResetAssertedRestoresState :=
  fun _ hr => ⟨_, step_of_reset hr, rfl, decode_encode .pwminit⟩

/-- Settles O56. -/
theorem invAtReset : Obligations.InvAtReset := inv_resetWith

end Sys2Proof
end

section
/-! PROOF. The text of the serial stream: decimal digits by the recurrence on the quotient by 10, thousandths with
their three digits, and the boot lines byte by byte (49_debug_trace.md R227, R228, R230). -/

namespace Sys2Proof.Machine

/-! Digits -/

theorem toNat_digit {d : Nat} (h : d < 10) : (digit d).toNat = 48 + d := by
  rw [digit, BitVec.toNat_ofNat]
  omega

/-- A byte that is an ASCII digit (49_debug_trace.md R227). -/
def IsDigit (c : Byte) : Prop := 48 ≤ c.toNat ∧ c.toNat ≤ 57

theorem isDigit_digit {d : Nat} (h : d < 10) : IsDigit (digit d) := by
  rw [IsDigit, toNat_digit h]
  omega

/-! Decimal text, by the recurrence on the quotient by 10 -/

theorem decimalDigits_succ_of_lt {fuel n : Nat} (h : n < 10) (tail : List Byte) :
    decimalDigits (fuel + 1) n tail = digit n :: tail :=
  if_pos h

theorem decimalDigits_succ_of_ge {fuel n : Nat} (h : 10 ≤ n) (tail : List Byte) :
    decimalDigits (fuel + 1) n tail = decimalDigits fuel (n / 10) (digit (n % 10) :: tail) :=
  if_neg (by omega)

theorem decimalDigits_append (fuel n : Nat) (tail : List Byte) :
    decimalDigits fuel n tail = decimalDigits fuel n [] ++ tail := by
  induction fuel generalizing n tail with
  | zero => rfl
  | succ fuel ih =>
    obtain h | h := Nat.lt_or_ge n 10
    · rw [decimalDigits_succ_of_lt h, decimalDigits_succ_of_lt h, List.singleton_append]
    · rw [decimalDigits_succ_of_ge h, decimalDigits_succ_of_ge h, ih, ih _ [digit (n % 10)], List.append_assoc,
        List.singleton_append]

/-- Any number of digits from that of the binary ones on is enough. -/
theorem decimalDigits_fuel {f g n : Nat} (hf : n < 2 ^ (f + 1)) (hg : n < 2 ^ (g + 1)) (tail : List Byte) :
    decimalDigits (f + 1) n tail = decimalDigits (g + 1) n tail := by
  induction f generalizing g n tail with
  | zero =>
    have h10 : n < 10 := by omega
    rw [decimalDigits_succ_of_lt h10, decimalDigits_succ_of_lt h10]
  | succ f ih =>
    obtain h10 | h10 := Nat.lt_or_ge n 10
    · rw [decimalDigits_succ_of_lt h10, decimalDigits_succ_of_lt h10]
    · cases g with
      | zero => omega
      | succ g =>
        rw [decimalDigits_succ_of_ge h10, decimalDigits_succ_of_ge h10]
        rw [pow_succ] at hf hg
        exact ih (by omega) (by omega) _

theorem decimal_of_lt {n : Nat} (h : n < 10) : decimal n = [digit n] :=
  decimalDigits_succ_of_lt h []

theorem decimal_of_ge {n : Nat} (h : 10 ≤ n) : decimal n = decimal (n / 10) ++ [digit (n % 10)] := by
  have hlog : n < 2 ^ (n.log2 + 1) := Nat.lt_log2_self
  have hquot : n / 10 < 2 ^ (n.log2 + 1) := by omega
  have hnext : n < 2 ^ (n.log2 + 1 + 1) := by
    rw [pow_succ]
    omega
  rw [decimal, decimalDigits_fuel hlog hnext, decimalDigits_succ_of_ge h, decimalDigits_append,
    decimalDigits_fuel hquot Nat.lt_log2_self, ← decimal]

/-- What holds of one digit and of a text with a digit after it holds of every decimal text. -/
theorem decimal_induction {P : Nat → Prop} (hlt : ∀ n < 10, P n) (hge : ∀ n, 10 ≤ n → P (n / 10) → P n)
    (n : Nat) : P n := by
  induction n using Nat.strong_induction_on with
  | _ n ih =>
    obtain h | h := Nat.lt_or_ge n 10
    · exact hlt n h
    · exact hge n h (ih _ (by omega))

/-- The number that a text of digits stands for, the most significant first. -/
def textValue (text : List Byte) : Nat := text.foldl (fun v c => 10 * v + (c.toNat - 48)) 0

theorem textValue_append_digit (text : List Byte) {d : Nat} (h : d < 10) :
    textValue (text ++ [digit d]) = 10 * textValue text + d := by
  rw [textValue, List.foldl_append, List.foldl_cons, List.foldl_nil, toNat_digit h, Nat.add_sub_cancel_left]
  rfl

theorem isDigit_decimal (n : Nat) : ∀ c ∈ decimal n, IsDigit c := by
  induction n using decimal_induction with
  | hlt n h =>
    rw [decimal_of_lt h]
    exact List.forall_mem_singleton.2 (isDigit_digit h)
  | hge n h ih =>
    rw [decimal_of_ge h]
    exact List.forall_mem_append.2 ⟨ih, List.forall_mem_singleton.2 (isDigit_digit (by omega))⟩

theorem textValue_decimal (n : Nat) : textValue (decimal n) = n := by
  induction n using decimal_induction with
  | hlt n h => rw [decimal_of_lt h, ← List.nil_append [digit n], textValue_append_digit _ h]; simp [textValue]
  | hge n h ih =>
    rw [decimal_of_ge h, textValue_append_digit _ (by omega), ih]
    omega

theorem decimal_ne_nil (n : Nat) : decimal n ≠ [] := by
  obtain h | h := Nat.lt_or_ge n 10
  · rw [decimal_of_lt h]
    exact List.cons_ne_nil _ _
  · rw [decimal_of_ge h]
    exact List.append_ne_nil_of_right_ne_nil _ (List.cons_ne_nil _ _)

/-- The first digit is not 0: it is that of the quotient, or the number itself. -/
theorem head?_decimal {n : Nat} (h0 : n ≠ 0) : (decimal n).head? ≠ some 0x30 := by
  induction n using decimal_induction with
  | hlt n h =>
    rw [decimal_of_lt h, List.head?_cons]
    intro he
    have hdigit := congrArg BitVec.toNat (Option.some_inj.1 he)
    rw [toNat_digit h] at hdigit
    simp at hdigit
    exact h0 hdigit
  | hge n h ih =>
    rw [decimal_of_ge h, List.head?_append_of_ne_nil _ (decimal_ne_nil _)]
    exact ih (by omega)

/-- A number below `10^(k + 1)` has at most `k + 1` digits. -/
theorem length_decimal_le {n : Nat} (k : Nat) (h : n < 10 ^ (k + 1)) : (decimal n).length ≤ k + 1 := by
  induction k generalizing n with
  | zero =>
    rw [decimal_of_lt (by omega)]
    exact le_rfl
  | succ k ih =>
    obtain h10 | h10 := Nat.lt_or_ge n 10
    · rw [decimal_of_lt h10, List.length_singleton]
      omega
    · rw [pow_succ] at h
      rw [decimal_of_ge h10, List.length_append, List.length_singleton]
      exact Nat.succ_le_succ (ih (by omega))

/-! The boot lines (49_debug_trace.md R230) -/

/-- The bytes of `128` and `256`. -/
def frameLenText : Config.FrameLen → List Byte
  | .n128 => [0x31, 0x32, 0x38]
  | .n256 => [0x32, 0x35, 0x36]

theorem decimal_len (p : Config.FrameLen) : decimal p.len = frameLenText p := by
  cases p with
  | n128 => decide
  | n256 => decide

theorem bannerText_eq (p : Config.Params) : bannerText p =
    [0x4C, 0x69, 0x6E, 0x65, 0x4C, 0x69, 0x67, 0x68, 0x74, 0x2D, 0x31, 0x20, 0x62, 0x6F, 0x6F, 0x74] ++
      p.eol.bytes ++ [0x46, 0x73, 0x3D, 0x39, 0x36, 0x30, 0x30] ++ p.eol.bytes ++ [0x4E, 0x3D] ++
      frameLenText p.frame ++ p.eol.bytes := by
  have hrate : decimal Config.sampleRateHz = [0x39, 0x36, 0x30, 0x30] := by decide
  rw [bannerText, hrate, decimal_len]
  simp [ascii]

end Sys2Proof.Machine

namespace Sys2Proof

open Machine

/-- Settles O49: each property passes from the decimal text of the quotient by 10 to that of the number. -/
theorem decimalText : Obligations.DecimalText := by
  refine fun n => ⟨isDigit_decimal n, textValue_decimal n, decimal_ne_nil n, head?_decimal, ?_⟩
  rintro rfl
  exact decimal_of_lt (by norm_num)

/-- Settles O50: the three digits are those of the remainder by 1000. -/
theorem thousandthsText : Obligations.ThousandthsText := by
  intro k
  have hundreds : k % 1000 / 100 < 10 := by omega
  have htens : k % 100 / 10 < 10 := by omega
  have hones : k % 10 < 10 := by omega
  refine ⟨digit (k % 1000 / 100), digit (k % 100 / 10), digit (k % 10), List.append_assoc _ _ _, ?_⟩
  rw [toNat_digit hundreds, toNat_digit htens, toNat_digit hones]
  omega

/-- Settles O45: the boot lines' bytes, where the trace is present. -/
theorem bannerEmitsBootLines : Obligations.BannerEmitsBootLines := by
  intro s
  refine ⟨fun h => ?present, fun h => ?absent⟩
  case present =>
    rw [exec_banner, if_pos h, bannerText_eq]
    rfl
  case absent => rw [exec_banner, h, if_neg Bool.false_ne_true]

end Sys2Proof
end

section
/-! PROOF. The duty is the half-up rounding of 255 times the clamped level's square: in binary64 it fits its 8 bits
and does not fall where the level rises, and over the reals it counts the thresholds the level reaches
(48_renderer.md R220 to R225). -/

namespace Sys2Proof.Machine

/-! Rounding half up in binary64 (00_scope.md R11) -/

/-- `floor(x + 0.5)`, the sum rounded once (48_renderer.md R221; log 22). -/
def halfUp (x : NumWord) : Int := F64.floor (F64.add x 0x3FE0000000000000)

theorem Numeric.half_num : Numeric.half num = 0x3FE0000000000000 := by decide +kernel

/-- Half-up rounding, where it answers: its operand is finite. -/
theorem Numeric.roundHalfUp_num {x : NumWord} {k : Int} (h : Numeric.roundHalfUp num x = some k) :
    F64.isFinite x = true ∧ k = halfUp x := by
  rw [Numeric.roundHalfUp, Numeric.half_num, num_finite, num_add] at h
  split at h
  · rename_i hsum
    obtain ⟨hx, -⟩ := F64.isFinite_of_add hsum
    exact ⟨hx, (Option.some_inj.1 h).symm⟩
  · cases h

theorem F64.floor_mono {x y : NumWord} (h : F64.val x ≤ F64.val y) : F64.floor x ≤ F64.floor y :=
  Int.ediv_le_ediv (by exact_mod_cast F64.scale_pos) h

theorem halfUp_mono {x y : NumWord} (hx : F64.isFinite x = true) (hy : F64.isFinite y = true)
    (h : F64.val x ≤ F64.val y) : halfUp x ≤ halfUp y := by
  have hhalf : F64.isFinite (0x3FE0000000000000 : NumWord) = true := by decide
  exact F64.floor_mono ((F64.isRounding_add hx hhalf).mono (F64.isRounding_add hy hhalf) one_pos (by omega))

/-- A product keeps the order in a factor beside one that is not negative (00_scope.md R16 (e)). -/
theorem F64.mul_mono_left {x y c : NumWord} (hx : F64.isFinite x = true) (hy : F64.isFinite y = true)
    (hc : F64.isFinite c = true) (hc0 : 0 ≤ F64.val c) (h : F64.val x ≤ F64.val y) :
    F64.val (F64.mul x c) ≤ F64.val (F64.mul y c) :=
  (F64.isRounding_mul hx hc).mono (F64.isRounding_mul hy hc) F64.scale_pos (mul_le_mul_of_nonneg_right h hc0)

/-! The clamped level (48_renderer.md R220) -/

/-- `clamp(level, 0, 1)`. -/
def clampUnit (level : NumWord) : NumWord :=
  if F64.val level < 0 then 0 else if F64.val 0x3FF0000000000000 < F64.val level then 0x3FF0000000000000 else level

theorem Numeric.clamp_eq_clampUnit {level : NumWord} (h : F64.isFinite level = true) :
    Numeric.clamp num level (Numeric.zero num) (Numeric.one num) = some (clampUnit level) := by
  obtain ⟨r, hr⟩ := Numeric.clamp_isSome (Numeric.zero num) (Numeric.one num) h
  obtain ⟨-, hval⟩ := Numeric.clamp_num hr
  rw [Numeric.zero_num, Numeric.one_num, F64.val_zero] at hval
  rw [hr, hval]
  rfl

theorem clampUnit_within {level : NumWord} (h : F64.isFinite level = true) :
    F64.within F64.zero F64.one (clampUnit level) := by
  have hclamp := Numeric.clamp_eq_clampUnit h
  rw [Numeric.zero_num, Numeric.one_num] at hclamp
  exact Numeric.clamp_within hclamp (by decide) (by decide) (by decide +kernel)

theorem val_clampUnit (level : NumWord) :
    F64.val (clampUnit level) = max 0 (min (F64.val level) F64.scale) := by
  have hzero : F64.val (0 : NumWord) = 0 := F64.val_zero
  have hone : F64.val (0x3FF0000000000000 : NumWord) = F64.scale := F64.val_one
  have hscale := F64.scale_pos
  unfold clampUnit
  split_ifs <;> omega

theorem clampUnit_mono {a b : NumWord} (h : F64.val a ≤ F64.val b) :
    F64.val (clampUnit a) ≤ F64.val (clampUnit b) := by
  rw [val_clampUnit, val_clampUnit]
  omega

/-! The duty of a level in `[0, 1]` (48_renderer.md R220 to R224) -/

/-- The half-up rounding of 255 times the square. -/
def unitDuty (x : NumWord) : Int := halfUp (F64.mul (F64.mul x x) 0x406FE00000000000)

theorem dutyOfLevel_num {level : NumWord} (h : F64.isFinite level = true) :
    dutyOfLevel num level = some (unitDuty (clampUnit level)) := by
  have h255 : F64.ofInt 255 = 0x406FE00000000000 := by decide +kernel
  obtain ⟨d, hd⟩ := dutyOfLevel_isSome h
  have hround := hd
  rw [dutyOfLevel, Numeric.clamp_eq_clampUnit h] at hround
  obtain ⟨-, hduty⟩ := Numeric.roundHalfUp_num hround
  rw [gammaScaled, num_mul, num_ofInt, h255] at hduty
  rw [hd, hduty, unitDuty]

theorem dutyOfLevel_eq_none {level : NumWord} (h : F64.isFinite level = false) : dutyOfLevel num level = none := by
  rw [dutyOfLevel, Numeric.clamp_eq_none.2 h]

theorem unit_square_bounded {x : NumWord} (hx : F64.within F64.zero F64.one x) :
    F64.boundedBy 0 (F64.mul x x) :=
  F64.boundedBy_mul (j := 0) (k := 0) (by norm_num) hx.boundedBy_one hx.boundedBy_one

theorem unitDuty_mono {x y : NumWord} (hx : F64.within F64.zero F64.one x) (hy : F64.within F64.zero F64.one y)
    (h : F64.val x ≤ F64.val y) : unitDuty x ≤ unitDuty y := by
  have h255 : F64.boundedBy 8 (0x406FE00000000000 : NumWord) := ⟨by decide, by decide +kernel⟩
  have hsquareX := unit_square_bounded hx
  have hsquareY := unit_square_bounded hy
  have hscaledX := F64.boundedBy_mul (by norm_num) hsquareX h255
  have hscaledY := F64.boundedBy_mul (by norm_num) hsquareY h255
  have hx0 : 0 ≤ F64.val x := F64.val_zero ▸ hx.2.1
  have hsquares : F64.val (F64.mul x x) ≤ F64.val (F64.mul y y) :=
    (F64.isRounding_mul hx.1 hx.1).mono (F64.isRounding_mul hy.1 hy.1) F64.scale_pos (mul_self_le_mul_self hx0 h)
  exact halfUp_mono hscaledX.1 hscaledY.1
    (F64.mul_mono_left hsquareX.1 hsquareY.1 h255.1 (by decide +kernel) hsquares)

/-- The duty is 0 at the level 0 and 255 at 1, and between them in between (48_renderer.md R223). -/
theorem unitDuty_range {x : NumWord} (hx : F64.within F64.zero F64.one x) : 0 ≤ unitDuty x ∧ unitDuty x ≤ 255 := by
  have hzero : F64.within F64.zero F64.one F64.zero := ⟨by decide, le_rfl, by decide +kernel⟩
  have hone : F64.within F64.zero F64.one F64.one := ⟨by decide, by decide +kernel, le_rfl⟩
  have hfirst : unitDuty F64.zero = 0 := by decide +kernel
  have hlast : unitDuty F64.one = 255 := by decide +kernel
  have hlo := unitDuty_mono hzero hx hx.2.1
  have hhi := unitDuty_mono hx hone hx.2.2
  omega

theorem exec_render_refused {s : State} (h : dutyOfLevel num s.level = none) :
    exec .render s = .refused .notFinite := by
  change execRender s = _
  unfold execRender
  rw [h]

/-! The thresholds over the reals (48_renderer.md R225) -/

theorem sqrt_threshold_le_iff {x : ℝ} (hx : 0 ≤ x) (d : ℕ) :
    Real.sqrt (((d : ℝ) - 1 / 2) / 255) ≤ x ↔ d ≤ ⌊x ^ 2 * 255 + 1 / 2⌋₊ := by
  have hnonneg : 0 ≤ x ^ 2 * 255 + 1 / 2 := by positivity
  rw [Real.sqrt_le_left hx, div_le_iff₀ (by norm_num), sub_le_iff_le_add, Nat.le_floor_iff hnonneg]

/-- Of the thresholds in ascending order a level reaches the first ones. -/
theorem card_thresholds {x : ℝ} (h0 : 0 ≤ x) (h1 : x ≤ 1) :
    ((Finset.Icc 1 255).filter (fun d : ℕ => Real.sqrt (((d : ℝ) - 1 / 2) / 255) ≤ x)).card =
      ⌊x ^ 2 * 255 + 1 / 2⌋₊ := by
  have hle : ⌊x ^ 2 * 255 + 1 / 2⌋₊ ≤ 255 := by
    have hsq : x ^ 2 ≤ 1 := pow_le_one₀ h0 h1
    refine Nat.le_of_lt_succ ((Nat.floor_lt (by positivity)).2 ?_)
    push_cast
    linarith
  have hreached : (Finset.Icc 1 255).filter (fun d : ℕ => Real.sqrt (((d : ℝ) - 1 / 2) / 255) ≤ x) =
      Finset.Icc 1 ⌊x ^ 2 * 255 + 1 / 2⌋₊ := by
    ext d
    rw [Finset.mem_filter, sqrt_threshold_le_iff h0, Finset.mem_Icc, Finset.mem_Icc]
    omega
  rw [hreached, Nat.card_Icc, Nat.add_sub_cancel]

end Sys2Proof.Machine

namespace Sys2Proof

open Machine

/-- Settles O42: RENDER writes the duty of the clamped level, which is below 256. -/
theorem renderMapsLevel : Obligations.RenderMapsLevel := by
  refine ⟨fun s h => ?finite, fun s h => exec_render_refused (dutyOfLevel_eq_none h)⟩
  case finite =>
    obtain ⟨hlo, hhi⟩ := unitDuty_range (clampUnit_within h)
    refine ⟨_, clampUnit s.level, exec_render (dutyOfLevel_num h), rfl, ?_, rfl, rfl⟩
    change ((BitVec.ofInt 8 (unitDuty (clampUnit s.level))).toNat : Int) = unitDuty (clampUnit s.level)
    rw [BitVec.toNat_ofInt]
    omega

/-- Settles O43: the clamp, the square and its rounding keep the order. -/
theorem renderMonotone : Obligations.RenderMonotone := by
  intro a b ha hb h
  have hclampA := clampUnit_within ha
  have hclampB := clampUnit_within hb
  exact ⟨_, _, dutyOfLevel_num ha, dutyOfLevel_num hb, (unitDuty_range hclampA).1,
    unitDuty_mono hclampA hclampB (clampUnit_mono h), (unitDuty_range hclampB).2⟩

/-- Settles O44: `d` is at most `255·x² + 0.5` just where `x` reaches the threshold `√((d − 0.5)/255)`. -/
theorem renderThresholdsReal : Obligations.RenderThresholdsReal := by
  intro x h0 h1
  have hduty := dutyOfLevel_real_sqrt (sq_nonneg x) (pow_le_one₀ h0 h1)
  rw [Real.sqrt_sq h0] at hduty
  rw [hduty, card_thresholds h0 h1, Int.natCast_floor_eq_floor (by positivity)]

end Sys2Proof
end

section
/-! PROOF. TRACE emits a line exactly where one is due, and the line is the literal text of the state's band and of
its three numbers in thousandths, of at most 72 characters (49_debug_trace.md R228, R232 to R241). -/

namespace Sys2Proof.Machine

/-! A number in thousandths (49_debug_trace.md R228) -/

/-- The number of thousandths, rounded half up: `floor(v × 1000 + 0.5)`. -/
def milli (v : NumWord) : Int := halfUp (F64.mul v 0x408F400000000000)

theorem thousand_num : F64.ofInt 1000 = 0x408F400000000000 := by decide +kernel

/-- A number is printed only if it is finite (60_exceptions.md R262 (c)), and then as its thousandths. -/
theorem fmt3_num {v : NumWord} {text : List Byte} (h : fmt3 num v = some text) :
    F64.isFinite v = true ∧ text = thousandths (thousandthsOf (milli v)) := by
  rw [fmt3, num_mul, num_ofInt, thousand_num] at h
  split at h
  · rename_i k hk
    obtain ⟨hproduct, rfl⟩ := Numeric.roundHalfUp_num hk
    obtain ⟨hv, -⟩ := F64.isFinite_of_mul hproduct
    exact ⟨hv, (Option.some_inj.1 h).symm⟩
  · cases h

theorem milli_mono {v w : NumWord} (hv : F64.boundedBy 52 v) (hw : F64.boundedBy 52 w)
    (h : F64.val v ≤ F64.val w) : milli v ≤ milli w := by
  have h1000 : F64.boundedBy 10 (0x408F400000000000 : NumWord) := ⟨by decide, by decide +kernel⟩
  have hproductV := F64.boundedBy_mul (by norm_num) hv h1000
  have hproductW := F64.boundedBy_mul (by norm_num) hw h1000
  exact halfUp_mono hproductV.1 hproductW.1 (F64.mul_mono_left hv.1 hw.1 h1000.1 (by decide +kernel) h)

theorem milli_nonneg {v : NumWord} (hv : F64.boundedBy 52 v) (h0 : 0 ≤ F64.val v) : 0 ≤ milli v := by
  have hzero : milli F64.zero = 0 := by decide +kernel
  have hmono := milli_mono (F64.isZero_zero.boundedBy 52) hv (by rwa [F64.val_zero])
  rwa [hzero] at hmono

theorem fmt3_of_nonneg {v : NumWord} (hv : F64.boundedBy 52 v) (h0 : 0 ≤ F64.val v) :
    fmt3 num v = some (thousandths (milli v).toNat) := by
  obtain ⟨text, htext⟩ := fmt3_isSome hv
  obtain ⟨-, rfl⟩ := fmt3_num htext
  rw [htext, thousandthsOf, if_pos (milli_nonneg hv h0)]

/-! The status line (49_debug_trace.md R234) -/

/-- The three numbers of the line are not negative, as they are in every run (47_agc_smoother.md R207). -/
structure State.LineNonneg (s : State) : Prop where
  level : 0 ≤ F64.val s.level
  gain : 0 ≤ F64.val s.gain
  ema : 0 ≤ F64.val s.ema

/-- The text of a state's line, byte by byte. -/
def State.lineText (s : State) : List Byte :=
  [0x62, 0x69, 0x6E, 0x73, 0x20] ++ decimal s.binLo.toNat ++ [0x2D] ++ decimal s.binHi.toNat ++
    [0x20, 0x28] ++ decimal (s.binLo.toNat * 9600 / s.len) ++ [0x2D] ++
    decimal (s.binHi.toNat * 9600 / s.len) ++ [0x20, 0x48, 0x7A, 0x29] ++
    [0x20, 0x6C, 0x65, 0x76, 0x65, 0x6C, 0x20] ++ thousandths (milli s.level).toNat ++
    [0x20, 0x20, 0x61, 0x67, 0x63, 0x20] ++ thousandths (milli s.gain).toNat ++
    [0x20, 0x20, 0x65, 0x6D, 0x61, 0x20] ++ thousandths (milli s.ema).toNat ++ s.params.eol.bytes

theorem statusLine_eq_lineText {s : State} (h : s.printable) (h0 : s.LineNonneg) :
    s.statusLine = some s.lineText := by
  obtain ⟨hlevel, hgain, hema⟩ := h
  rw [State.statusLine, traceLine, fmt3_of_nonneg hlevel h0.level, fmt3_of_nonneg hgain h0.gain,
    fmt3_of_nonneg hema h0.ema]
  rfl

/-- A line is printed only of three finite numbers (60_exceptions.md R262 (c)). -/
theorem finite_of_statusLine {s : State} {line : List Byte} (h : s.statusLine = some line) :
    F64.isFinite s.level = true ∧ F64.isFinite s.gain = true ∧ F64.isFinite s.ema = true := by
  rw [State.statusLine, traceLine] at h
  split at h
  · rename_i hl hg hm
    exact ⟨(fmt3_num hl).1, (fmt3_num hg).1, (fmt3_num hm).1⟩
  · cases h

/-! The length of the line (49_debug_trace.md R241) -/

theorem length_thousandths_le {k : Nat} (j : Nat) (h : k / 1000 < 10 ^ (j + 1)) :
    (thousandths k).length ≤ j + 5 := by
  have hwhole := length_decimal_le j h
  simp only [thousandths, ascii, List.length_append, List.length_map, List.length_cons, List.length_nil]
  omega

theorem milli_toNat_le {v w : NumWord} (hv : F64.boundedBy 52 v) (hw : F64.boundedBy 52 w)
    (h : F64.val v ≤ F64.val w) {m : Nat} (hm : milli w = m) : (milli v).toNat ≤ m := by
  have hmono := milli_mono hv hw h
  omega

/-- A band edge has at most 3 digits, and its frequency at most 4. -/
theorem length_edge_le (l : Config.FrameLen) {b : Nat} (h : b ≤ l.nyq) :
    (decimal b).length ≤ 3 ∧ (decimal (b * 9600 / l.len)).length ≤ 4 := by
  have hb : b < 10 ^ (2 + 1) := h.trans_lt ((nyq_range l).2.trans (by norm_num))
  have hhz : b * 9600 / l.len < 10 ^ (3 + 1) := by
    cases l with
    | n128 => simp only [Config.FrameLen.nyq, Config.FrameLen.len] at h ⊢; omega
    | n256 => simp only [Config.FrameLen.nyq, Config.FrameLen.len] at h ⊢; omega
  exact ⟨length_decimal_le 2 hb, length_decimal_le 3 hhz⟩

/-- The ranges of the line's numbers: those of R207 and the bound of `EMA` (10_state.md R31). -/
structure State.LineRange (s : State) : Prop where
  level : F64.within F64.zero F64.one s.level
  gain : F64.within (agcMin num) (agcMax num) s.gain
  ema : F64.within F64.zero (F64.ofInt 4261478400) s.ema

section
variable {s : State} (h : s.LineRange)
include h

theorem State.LineRange.nonneg : s.LineNonneg where
  level := F64.val_zero ▸ h.level.2.1
  gain := gain_nonneg h.gain
  ema := F64.val_zero ▸ h.ema.2.1

theorem State.LineRange.printable : s.printable := by
  have hema : F64.within F64.zero F64.pow52 s.ema :=
    ⟨h.ema.1, h.ema.2.1, h.ema.2.2.trans (by decide +kernel)⟩
  exact ⟨F64.boundedBy_mono (by norm_num) h.level.boundedBy_one,
    F64.boundedBy_mono (by norm_num) (gain_bounded h.gain), hema.boundedBy_pow52⟩

/-- The level has 5 characters, the gain at most 7 and `EMA` at most 14. -/
theorem State.LineRange.length_numbers_le :
    (thousandths (milli s.level).toNat).length ≤ 5 ∧ (thousandths (milli s.gain).toNat).length ≤ 7 ∧
      (thousandths (milli s.ema).toNat).length ≤ 14 := by
  obtain ⟨hlevel, hgain, hema⟩ := h.printable
  have hl := milli_toNat_le (m := 1000) hlevel (F64.boundedBy_mono (by norm_num) F64.boundedBy_one) h.level.2.2
    (by decide +kernel)
  have hg := milli_toNat_le (m := 200000) hgain ⟨by decide +kernel, by decide +kernel⟩ h.gain.2.2
    (by decide +kernel)
  have hm := milli_toNat_le (m := 4261478400000) hema ⟨by decide +kernel, by decide +kernel⟩ h.ema.2.2
    (by decide +kernel)
  exact ⟨length_thousandths_le 0 (by omega), length_thousandths_le 2 (by omega),
    length_thousandths_le 9 (by omega)⟩

theorem State.LineRange.length_lineText_le (hlo : s.binLo.toNat ≤ s.params.frame.nyq)
    (hhi : s.binHi.toNat ≤ s.params.frame.nyq) : s.lineText.length ≤ 72 + s.params.eol.bytes.length := by
  obtain ⟨hlo, hhzLo⟩ := length_edge_le s.params.frame hlo
  obtain ⟨hhi, hhzHi⟩ := length_edge_le s.params.frame hhi
  obtain ⟨hlevel, hgain, hema⟩ := h.length_numbers_le
  simp only [State.lineText, State.len_eq, List.length_append, List.length_cons, List.length_nil]
  omega

end

/-! TRACE (49_debug_trace.md R232, R233) -/

theorem traceDue_iff {now last : BitVec 32} : traceDue now last = true ↔ 1000 ≤ (now - last).toNat :=
  decide_eq_true_iff

theorem State.traceAt_of_due {clk : MsClock} {s : State} (h : traceDue clk.now s.lastMs = true)
    (line : List Byte) : s.traceAt clk line =
      { s with env := { s.env with ms := clk }, lastMs := clk.now, txq := s.txq ++ line } := by
  simp only [State.traceAt, h, if_true]

theorem State.traceAt_of_not_due {clk : MsClock} {s : State} (h : traceDue clk.now s.lastMs = false)
    (line : List Byte) : s.traceAt clk line = { s with env := { s.env with ms := clk } } := by
  simp only [State.traceAt, h, Bool.false_eq_true, if_false]

theorem exec_trace_of_absent {s : State} (h : s.params.traceEn = false) :
    exec .trace s = .next (s.advance .trace) := by
  change execTrace s = _
  rw [execTrace, h, if_neg Bool.false_ne_true]

/-- TRACE refuses a line that is due and cannot be printed (60_exceptions.md R262 (c)). -/
theorem exec_trace_refused {s : State} (he : s.params.traceEn = true) (hline : s.statusLine = none)
    (hdue : traceDue s.env.ms.read.now s.lastMs = true) : exec .trace s = .refused .notFinite := by
  change execTrace s = _
  simp only [execTrace, he, hline, hdue, if_true]

end Sys2Proof.Machine

namespace Sys2Proof

open Machine

/-- Settles O46, by whether a line is due at the one reading of the clock. -/
theorem traceEmitsWhenDue : Obligations.TraceEmitsWhenDue := by
  refine ⟨fun s he hprint => ?present, fun s => exec_trace_of_absent, fun s he hfinite hdue => ?refused⟩
  case present =>
    obtain ⟨line, hline⟩ := statusLine_isSome hprint
    have hexec := exec_trace hline
    rw [if_pos he] at hexec
    refine ⟨line, s.env.ms.read.now, hline, rfl, fun hdue => ?_, fun hdue => ?_⟩
    · rw [hexec, State.traceAt_of_due (traceDue_iff.2 hdue)]
      rfl
    · have hnot : traceDue s.env.ms.read.now s.lastMs = false :=
        Bool.eq_false_iff.2 fun h => hdue.not_ge (traceDue_iff.1 h)
      rw [hexec, State.traceAt_of_not_due hnot]
      rfl
  case refused =>
    refine exec_trace_refused he (Option.eq_none_iff_forall_ne_some.2 fun line hline => ?_) (traceDue_iff.2 hdue)
    obtain ⟨hlevel, hgain, hema⟩ := finite_of_statusLine hline
    simp [hlevel, hgain, hema] at hfinite

/-- Settles O47: the line's numbers are the half-up thousandths of the three fields. -/
theorem statusLineFields : Obligations.StatusLineFields := by
  intro s hprint hlevel hgain hema
  have hline := statusLine_eq_lineText hprint ⟨hlevel, hgain, hema⟩
  obtain ⟨hlevelBound, hgainBound, hemaBound⟩ := hprint
  exact ⟨(milli s.level).toNat, (milli s.gain).toNat, (milli s.ema).toNat,
    Int.toNat_of_nonneg (milli_nonneg hlevelBound hlevel), Int.toNat_of_nonneg (milli_nonneg hgainBound hgain),
    Int.toNat_of_nonneg (milli_nonneg hemaBound hema), hline⟩

/-- Settles O48: the literal parts of the line have 32 characters, and its numbers at most 40 in these ranges. -/
theorem statusLineLength : Obligations.StatusLineLength := by
  intro s hhi hlo hlevel hgain hema
  have hrange : s.LineRange := ⟨hlevel, hgain, hema⟩
  have hline := statusLine_eq_lineText hrange.printable hrange.nonneg
  exact ⟨s.lineText, hline, hrange.length_lineText_le hlo hhi, sevenBit_traceLine hline⟩

end Sys2Proof
end
